-- ==== Sys2Proof/Word.lean ====
section
/-! DEFINITION. The word types of the core and nothing else: a byte (registers and memory cells, R10 to
R13, R15, R40) and a 16-bit address (the program counter and every effective address, R14, R40).
Their arithmetic is that of `BitVec`, so `+` and `-` wrap modulo 256 and modulo 65,536 (R42, R116). -/

namespace Sys2Proof

/-- An 8-bit register value, memory cell or operand byte (R10, R40). -/
abbrev Byte := BitVec 8

/-- A 16-bit address (R14, R40); arithmetic on it wraps modulo 65,536 (R42). -/
abbrev Addr := BitVec 16

end Sys2Proof
end

