-- ==== Sys2Proof/Config.lean ====
section
/-! DEFINITION. What this implementation fixes (00_scope.md section 5). The spec leaves no result without
a value (93_implementation_defined.md part 1), so there is no free value here. -/

namespace Sys2Proof.Config

/-- Low byte of the NMI vector; the high byte is at the next address (R207). -/
def nmiVector : Addr := 0xFFFA#16

/-- Low byte of the reset vector; the high byte is at the next address (R230). -/
def resetVector : Addr := 0xFFFC#16

/-- Low byte of the IRQ vector; the high byte is at the next address (R206). -/
def irqVector : Addr := 0xFFFE#16

/-- The first address of page one, where the stack lives (R13). -/
def stackBase : Addr := 0x0100#16

/-- What a byte that nothing has written reads as: `initialize()` zero-fills all cells (R56). -/
def unwrittenByte : Byte := 0x00#8

/-- The size of the one address space (R40). -/
def memorySize : Nat := 65536

end Sys2Proof.Config
end

