-- ==== Sys2Proof/Syntax.lean ====
section
/-! DEFINITION. The instructions as syntax: the 56 operation tags and 12 addressing-mode tags of the
Instruction Descriptor (R63, R69), operands with their operand bytes assembled (R62), and `Instr`, one
constructor for each of the 151 rows of spec/opcode_table.json (R63, R70). -/

namespace Sys2Proof

/-- The 56 operation tags (R63). -/
inductive Mnemonic where
  | adc | and | asl | bcc | bcs | beq | bit | bmi | bne | bpl
  | brk | bvc | bvs | clc | cld | cli | clv | cmp | cpx | cpy
  | dec | dex | dey | eor | inc | inx | iny | jmp | jsr | lda
  | ldx | ldy | lsr | nop | ora | pha | php | pla | plp | rol
  | ror | rti | rts | sbc | sec | sed | sei | sta | stx | sty
  | tax | tay | tsx | txa | txs | tya
  deriving DecidableEq, Repr

/-- The 12 addressing-mode tags (R61, R69). -/
inductive Mode where
  /-- IMPLIED, also the accumulator forms of the shifts (R81). -/
  | implied
  /-- IMMEDIATE (R82). -/
  | immediate
  /-- ZERO_PAGE (R83). -/
  | zeroPage
  /-- ZERO_PAGE_X (R84). -/
  | zeroPageX
  /-- ZERO_PAGE_Y (R85). -/
  | zeroPageY
  /-- ABSOLUTE (R86). -/
  | absolute
  /-- ABSOLUTE_X (R87). -/
  | absoluteX
  /-- ABSOLUTE_Y (R88). -/
  | absoluteY
  /-- RELATIVE (R89). -/
  | relative
  /-- INDIRECT (R90). -/
  | indirect
  /-- INDIRECT_X (R91). -/
  | indirectX
  /-- INDIRECT_Y (R92). -/
  | indirectY
  deriving DecidableEq, Repr

/-- An operand of a mode that has an effective address in memory (R83 to R88, R90 to R92), with its
operand bytes: one zero-page byte, or the 16-bit little-endian combination of two bytes (R62). -/
inductive MemOperand where
  | zeroPage (zp8 : Byte)
  | zeroPageX (zp8 : Byte)
  | zeroPageY (zp8 : Byte)
  | absolute (addr16 : Addr)
  | absoluteX (base16 : Addr)
  | absoluteY (base16 : Addr)
  | indirect (ptr16 : Addr)
  | indirectX (zp8 : Byte)
  | indirectY (zp8 : Byte)
  deriving DecidableEq, Repr

/-- An operand of any of the twelve modes (R81 to R92). -/
inductive Operand where
  | implied
  | immediate (imm8 : Byte)
  | mem (m : MemOperand)
  | relative (rel8 : Byte)
  deriving DecidableEq, Repr

/-- The instructions: one constructor per row of spec/opcode_table.json (R63). The suffix of a name is
the row's mode: `Acc` the accumulator form (IMPLIED), `Imm`, `Zp`, `Zpx`, `Zpy`, `Abs`, `Abx`, `Aby`,
`Ind`, `Izx` (INDIRECT_X), `Izy` (INDIRECT_Y); a mnemonic with one mode has none. -/
inductive Instr where
  -- LDA (R100)
  | ldaImm (imm8 : Byte)
  | ldaZp (zp8 : Byte)
  | ldaZpx (zp8 : Byte)
  | ldaAbs (addr16 : Addr)
  | ldaAbx (base16 : Addr)
  | ldaAby (base16 : Addr)
  | ldaIzx (zp8 : Byte)
  | ldaIzy (zp8 : Byte)
  -- LDX (R101)
  | ldxImm (imm8 : Byte)
  | ldxZp (zp8 : Byte)
  | ldxZpy (zp8 : Byte)
  | ldxAbs (addr16 : Addr)
  | ldxAby (base16 : Addr)
  -- LDY (R102)
  | ldyImm (imm8 : Byte)
  | ldyZp (zp8 : Byte)
  | ldyZpx (zp8 : Byte)
  | ldyAbs (addr16 : Addr)
  | ldyAbx (base16 : Addr)
  -- STA (R103)
  | staZp (zp8 : Byte)
  | staZpx (zp8 : Byte)
  | staAbs (addr16 : Addr)
  | staAbx (base16 : Addr)
  | staAby (base16 : Addr)
  | staIzx (zp8 : Byte)
  | staIzy (zp8 : Byte)
  -- STX (R104)
  | stxZp (zp8 : Byte)
  | stxZpy (zp8 : Byte)
  | stxAbs (addr16 : Addr)
  -- STY (R105)
  | styZp (zp8 : Byte)
  | styZpx (zp8 : Byte)
  | styAbs (addr16 : Addr)
  -- ADC (R110)
  | adcImm (imm8 : Byte)
  | adcZp (zp8 : Byte)
  | adcZpx (zp8 : Byte)
  | adcAbs (addr16 : Addr)
  | adcAbx (base16 : Addr)
  | adcAby (base16 : Addr)
  | adcIzx (zp8 : Byte)
  | adcIzy (zp8 : Byte)
  -- SBC (R111)
  | sbcImm (imm8 : Byte)
  | sbcZp (zp8 : Byte)
  | sbcZpx (zp8 : Byte)
  | sbcAbs (addr16 : Addr)
  | sbcAbx (base16 : Addr)
  | sbcAby (base16 : Addr)
  | sbcIzx (zp8 : Byte)
  | sbcIzy (zp8 : Byte)
  -- AND (R112)
  | andImm (imm8 : Byte)
  | andZp (zp8 : Byte)
  | andZpx (zp8 : Byte)
  | andAbs (addr16 : Addr)
  | andAbx (base16 : Addr)
  | andAby (base16 : Addr)
  | andIzx (zp8 : Byte)
  | andIzy (zp8 : Byte)
  -- ORA (R113)
  | oraImm (imm8 : Byte)
  | oraZp (zp8 : Byte)
  | oraZpx (zp8 : Byte)
  | oraAbs (addr16 : Addr)
  | oraAbx (base16 : Addr)
  | oraAby (base16 : Addr)
  | oraIzx (zp8 : Byte)
  | oraIzy (zp8 : Byte)
  -- EOR (R114)
  | eorImm (imm8 : Byte)
  | eorZp (zp8 : Byte)
  | eorZpx (zp8 : Byte)
  | eorAbs (addr16 : Addr)
  | eorAbx (base16 : Addr)
  | eorAby (base16 : Addr)
  | eorIzx (zp8 : Byte)
  | eorIzy (zp8 : Byte)
  -- BIT (R115)
  | bitZp (zp8 : Byte)
  | bitAbs (addr16 : Addr)
  -- ASL (R120)
  | aslAcc
  | aslZp (zp8 : Byte)
  | aslZpx (zp8 : Byte)
  | aslAbs (addr16 : Addr)
  | aslAbx (base16 : Addr)
  -- LSR (R121)
  | lsrAcc
  | lsrZp (zp8 : Byte)
  | lsrZpx (zp8 : Byte)
  | lsrAbs (addr16 : Addr)
  | lsrAbx (base16 : Addr)
  -- ROL (R122)
  | rolAcc
  | rolZp (zp8 : Byte)
  | rolZpx (zp8 : Byte)
  | rolAbs (addr16 : Addr)
  | rolAbx (base16 : Addr)
  -- ROR (R123)
  | rorAcc
  | rorZp (zp8 : Byte)
  | rorZpx (zp8 : Byte)
  | rorAbs (addr16 : Addr)
  | rorAbx (base16 : Addr)
  -- CMP (R130)
  | cmpImm (imm8 : Byte)
  | cmpZp (zp8 : Byte)
  | cmpZpx (zp8 : Byte)
  | cmpAbs (addr16 : Addr)
  | cmpAbx (base16 : Addr)
  | cmpAby (base16 : Addr)
  | cmpIzx (zp8 : Byte)
  | cmpIzy (zp8 : Byte)
  -- CPX (R131)
  | cpxImm (imm8 : Byte)
  | cpxZp (zp8 : Byte)
  | cpxAbs (addr16 : Addr)
  -- CPY (R132)
  | cpyImm (imm8 : Byte)
  | cpyZp (zp8 : Byte)
  | cpyAbs (addr16 : Addr)
  -- INC (R133)
  | incZp (zp8 : Byte)
  | incZpx (zp8 : Byte)
  | incAbs (addr16 : Addr)
  | incAbx (base16 : Addr)
  -- DEC (R134)
  | decZp (zp8 : Byte)
  | decZpx (zp8 : Byte)
  | decAbs (addr16 : Addr)
  | decAbx (base16 : Addr)
  -- INX (R135)
  | inx
  -- INY (R136)
  | iny
  -- DEX (R137)
  | dex
  -- DEY (R138)
  | dey
  -- BCC (R146)
  | bcc (rel8 : Byte)
  -- BCS (R147)
  | bcs (rel8 : Byte)
  -- BEQ (R148)
  | beq (rel8 : Byte)
  -- BNE (R149)
  | bne (rel8 : Byte)
  -- BMI (R150)
  | bmi (rel8 : Byte)
  -- BPL (R151)
  | bpl (rel8 : Byte)
  -- BVC (R152)
  | bvc (rel8 : Byte)
  -- BVS (R153)
  | bvs (rel8 : Byte)
  -- JMP (R154)
  | jmpAbs (addr16 : Addr)
  | jmpInd (ptr16 : Addr)
  -- JSR (R155)
  | jsr (addr16 : Addr)
  -- RTS (R156)
  | rts
  -- PHA (R165)
  | pha
  -- PHP (R166)
  | php
  -- PLA (R167)
  | pla
  -- PLP (R168)
  | plp
  -- RTI (R169)
  | rti
  -- CLC (R175)
  | clc
  -- SEC (R176)
  | sec
  -- CLD (R177)
  | cld
  -- SED (R178)
  | sed
  -- CLI (R179)
  | cli
  -- SEI (R180)
  | sei
  -- CLV (R181)
  | clv
  -- TAX (R185)
  | tax
  -- TAY (R186)
  | tay
  -- TXA (R187)
  | txa
  -- TYA (R188)
  | tya
  -- TSX (R189)
  | tsx
  -- TXS (R190)
  | txs
  -- BRK (R195)
  | brk
  -- NOP (R196)
  | nop
  deriving DecidableEq, Repr

end Sys2Proof
end

