-- ==== Sys2Proof/WellFormed.lean ====
section
/-! DEFINITION. What makes an instruction well formed (R61, R70). `Instr` cannot express an ill-formed
instruction: its constructors are the 151 legal pairs and every operand value is legal (R65). The checks
are therefore on the raw form the spec's decoder works with, an operation tag, a mode tag and the operand
bytes that follow the opcode; `Instr.raw` (Decode.lean) gives the raw form of an `Instr`. -/

namespace Sys2Proof

/-- How many operand bytes a mode consumes (R61, the column "operand bytes consumed"). -/
def Mode.operandBytes : Mode → Nat
  | .implied => 0
  | .immediate => 1
  | .zeroPage => 1
  | .zeroPageX => 1
  | .zeroPageY => 1
  | .absolute => 2
  | .absoluteX => 2
  | .absoluteY => 2
  | .relative => 1
  | .indirect => 2
  | .indirectX => 1
  | .indirectY => 1

/-- The modes each operation has, as the operation's own rule lists them (R100 to R196; R70). -/
def Mnemonic.modes : Mnemonic → List Mode
  | .adc => [.immediate, .zeroPage, .zeroPageX, .absolute, .absoluteX, .absoluteY, .indirectX, .indirectY]
  | .and => [.immediate, .zeroPage, .zeroPageX, .absolute, .absoluteX, .absoluteY, .indirectX, .indirectY]
  | .asl => [.implied, .zeroPage, .zeroPageX, .absolute, .absoluteX]
  | .bcc => [.relative]
  | .bcs => [.relative]
  | .beq => [.relative]
  | .bit => [.zeroPage, .absolute]
  | .bmi => [.relative]
  | .bne => [.relative]
  | .bpl => [.relative]
  | .brk => [.implied]
  | .bvc => [.relative]
  | .bvs => [.relative]
  | .clc => [.implied]
  | .cld => [.implied]
  | .cli => [.implied]
  | .clv => [.implied]
  | .cmp => [.immediate, .zeroPage, .zeroPageX, .absolute, .absoluteX, .absoluteY, .indirectX, .indirectY]
  | .cpx => [.immediate, .zeroPage, .absolute]
  | .cpy => [.immediate, .zeroPage, .absolute]
  | .dec => [.zeroPage, .zeroPageX, .absolute, .absoluteX]
  | .dex => [.implied]
  | .dey => [.implied]
  | .eor => [.immediate, .zeroPage, .zeroPageX, .absolute, .absoluteX, .absoluteY, .indirectX, .indirectY]
  | .inc => [.zeroPage, .zeroPageX, .absolute, .absoluteX]
  | .inx => [.implied]
  | .iny => [.implied]
  | .jmp => [.absolute, .indirect]
  | .jsr => [.absolute]
  | .lda => [.immediate, .zeroPage, .zeroPageX, .absolute, .absoluteX, .absoluteY, .indirectX, .indirectY]
  | .ldx => [.immediate, .zeroPage, .zeroPageY, .absolute, .absoluteY]
  | .ldy => [.immediate, .zeroPage, .zeroPageX, .absolute, .absoluteX]
  | .lsr => [.implied, .zeroPage, .zeroPageX, .absolute, .absoluteX]
  | .nop => [.implied]
  | .ora => [.immediate, .zeroPage, .zeroPageX, .absolute, .absoluteX, .absoluteY, .indirectX, .indirectY]
  | .pha => [.implied]
  | .php => [.implied]
  | .pla => [.implied]
  | .plp => [.implied]
  | .rol => [.implied, .zeroPage, .zeroPageX, .absolute, .absoluteX]
  | .ror => [.implied, .zeroPage, .zeroPageX, .absolute, .absoluteX]
  | .rti => [.implied]
  | .rts => [.implied]
  | .sbc => [.immediate, .zeroPage, .zeroPageX, .absolute, .absoluteX, .absoluteY, .indirectX, .indirectY]
  | .sec => [.implied]
  | .sed => [.implied]
  | .sei => [.implied]
  | .sta => [.zeroPage, .zeroPageX, .absolute, .absoluteX, .absoluteY, .indirectX, .indirectY]
  | .stx => [.zeroPage, .zeroPageY, .absolute]
  | .sty => [.zeroPage, .zeroPageX, .absolute]
  | .tax => [.implied]
  | .tay => [.implied]
  | .tsx => [.implied]
  | .txa => [.implied]
  | .txs => [.implied]
  | .tya => [.implied]

/-- An instruction in the spec's raw form: a pair (operation tag, mode tag) of the Instruction Table and
the operand bytes in increasing address order (R61, R69). -/
structure RawInstr where
  mnemonic : Mnemonic
  mode : Mode
  operandBytes : List Byte
  deriving DecidableEq, Repr

/-- Check 1: the (operation, mode) pair is one of the 151 cells of the table (R70). -/
def RawInstr.legalPair (r : RawInstr) : Bool := r.mnemonic.modes.contains r.mode

/-- Check 2: exactly the operand bytes the mode consumes follow the opcode (R61). -/
def RawInstr.operandCount (r : RawInstr) : Bool := r.operandBytes.length == r.mode.operandBytes

/-- A raw instruction is well formed when both checks pass. -/
def RawInstr.wf (r : RawInstr) : Bool := r.legalPair && r.operandCount

end Sys2Proof
end

