-- ==== Sys2Proof/Decode.lean ====
section
/-! DEFINITION. From bytes to instructions and back. The decoder reads the 16 x 16 opcode matrix of
30_encoding.md (R63, R65), row by row; the encoder and the view of an instruction as (operation, operand)
follow the table by mnemonic of the same rule, so the two are transcribed from two different tables. -/

namespace Sys2Proof

/-! ## Byte order (R44, R62) -/

/-- `hi` and `lo` as one 16-bit value, 256 times `hi` plus `lo` (R44, R62). -/
def joinBytes (lo hi : Byte) : Addr := BitVec.ofNat 16 (hi.toNat * 256 + lo.toNat)

/-- Bits 7 to 0 of a 16-bit value. -/
def lowByte (w : Addr) : Byte := w.extractLsb' 0 8

/-- Bits 15 to 8 of a 16-bit value. -/
def highByte (w : Addr) : Byte := w.extractLsb' 8 8

/-! ## The opcode matrix (R63) -/

/-- What an opcode byte selects: an instruction with no, one or two operand bytes (R61). -/
inductive Form where
  | bare (i : Instr)
  | byte (f : Byte → Instr)
  | word (f : Addr → Instr)

/-- A cell of the matrix with no operand byte. -/
def cell0 (i : Instr) : Option Form := some (.bare i)

/-- A cell of the matrix with one operand byte. -/
def cell1 (f : Byte → Instr) : Option Form := some (.byte f)

/-- A cell of the matrix with two operand bytes. -/
def cell2 (f : Addr → Instr) : Option Form := some (.word f)

/-- A cell of the matrix with no table entry (R65). -/
def noEntry : Option Form := none

/-- Opcodes 0x00 to 0x0F (R63, the matrix). -/
def opcodeRow0 : List (Option Form) :=
  [cell0 .brk, cell1 .oraIzx, noEntry, noEntry] ++
  [noEntry, cell1 .oraZp, cell1 .aslZp, noEntry] ++
  [cell0 .php, cell1 .oraImm, cell0 .aslAcc, noEntry] ++
  [noEntry, cell2 .oraAbs, cell2 .aslAbs, noEntry]

/-- Opcodes 0x10 to 0x1F (R63, the matrix). -/
def opcodeRow1 : List (Option Form) :=
  [cell1 .bpl, cell1 .oraIzy, noEntry, noEntry] ++
  [noEntry, cell1 .oraZpx, cell1 .aslZpx, noEntry] ++
  [cell0 .clc, cell2 .oraAby, noEntry, noEntry] ++
  [noEntry, cell2 .oraAbx, cell2 .aslAbx, noEntry]

/-- Opcodes 0x20 to 0x2F (R63, the matrix). -/
def opcodeRow2 : List (Option Form) :=
  [cell2 .jsr, cell1 .andIzx, noEntry, noEntry] ++
  [cell1 .bitZp, cell1 .andZp, cell1 .rolZp, noEntry] ++
  [cell0 .plp, cell1 .andImm, cell0 .rolAcc, noEntry] ++
  [cell2 .bitAbs, cell2 .andAbs, cell2 .rolAbs, noEntry]

/-- Opcodes 0x30 to 0x3F (R63, the matrix). -/
def opcodeRow3 : List (Option Form) :=
  [cell1 .bmi, cell1 .andIzy, noEntry, noEntry] ++
  [noEntry, cell1 .andZpx, cell1 .rolZpx, noEntry] ++
  [cell0 .sec, cell2 .andAby, noEntry, noEntry] ++
  [noEntry, cell2 .andAbx, cell2 .rolAbx, noEntry]

/-- Opcodes 0x40 to 0x4F (R63, the matrix). -/
def opcodeRow4 : List (Option Form) :=
  [cell0 .rti, cell1 .eorIzx, noEntry, noEntry] ++
  [noEntry, cell1 .eorZp, cell1 .lsrZp, noEntry] ++
  [cell0 .pha, cell1 .eorImm, cell0 .lsrAcc, noEntry] ++
  [cell2 .jmpAbs, cell2 .eorAbs, cell2 .lsrAbs, noEntry]

/-- Opcodes 0x50 to 0x5F (R63, the matrix). -/
def opcodeRow5 : List (Option Form) :=
  [cell1 .bvc, cell1 .eorIzy, noEntry, noEntry] ++
  [noEntry, cell1 .eorZpx, cell1 .lsrZpx, noEntry] ++
  [cell0 .cli, cell2 .eorAby, noEntry, noEntry] ++
  [noEntry, cell2 .eorAbx, cell2 .lsrAbx, noEntry]

/-- Opcodes 0x60 to 0x6F (R63, the matrix). -/
def opcodeRow6 : List (Option Form) :=
  [cell0 .rts, cell1 .adcIzx, noEntry, noEntry] ++
  [noEntry, cell1 .adcZp, cell1 .rorZp, noEntry] ++
  [cell0 .pla, cell1 .adcImm, cell0 .rorAcc, noEntry] ++
  [cell2 .jmpInd, cell2 .adcAbs, cell2 .rorAbs, noEntry]

/-- Opcodes 0x70 to 0x7F (R63, the matrix). -/
def opcodeRow7 : List (Option Form) :=
  [cell1 .bvs, cell1 .adcIzy, noEntry, noEntry] ++
  [noEntry, cell1 .adcZpx, cell1 .rorZpx, noEntry] ++
  [cell0 .sei, cell2 .adcAby, noEntry, noEntry] ++
  [noEntry, cell2 .adcAbx, cell2 .rorAbx, noEntry]

/-- Opcodes 0x80 to 0x8F (R63, the matrix). -/
def opcodeRow8 : List (Option Form) :=
  [noEntry, cell1 .staIzx, noEntry, noEntry] ++
  [cell1 .styZp, cell1 .staZp, cell1 .stxZp, noEntry] ++
  [cell0 .dey, noEntry, cell0 .txa, noEntry] ++
  [cell2 .styAbs, cell2 .staAbs, cell2 .stxAbs, noEntry]

/-- Opcodes 0x90 to 0x9F (R63, the matrix). -/
def opcodeRow9 : List (Option Form) :=
  [cell1 .bcc, cell1 .staIzy, noEntry, noEntry] ++
  [cell1 .styZpx, cell1 .staZpx, cell1 .stxZpy, noEntry] ++
  [cell0 .tya, cell2 .staAby, cell0 .txs, noEntry] ++
  [noEntry, cell2 .staAbx, noEntry, noEntry]

/-- Opcodes 0xA0 to 0xAF (R63, the matrix). -/
def opcodeRowA : List (Option Form) :=
  [cell1 .ldyImm, cell1 .ldaIzx, cell1 .ldxImm, noEntry] ++
  [cell1 .ldyZp, cell1 .ldaZp, cell1 .ldxZp, noEntry] ++
  [cell0 .tay, cell1 .ldaImm, cell0 .tax, noEntry] ++
  [cell2 .ldyAbs, cell2 .ldaAbs, cell2 .ldxAbs, noEntry]

/-- Opcodes 0xB0 to 0xBF (R63, the matrix). -/
def opcodeRowB : List (Option Form) :=
  [cell1 .bcs, cell1 .ldaIzy, noEntry, noEntry] ++
  [cell1 .ldyZpx, cell1 .ldaZpx, cell1 .ldxZpy, noEntry] ++
  [cell0 .clv, cell2 .ldaAby, cell0 .tsx, noEntry] ++
  [cell2 .ldyAbx, cell2 .ldaAbx, cell2 .ldxAby, noEntry]

/-- Opcodes 0xC0 to 0xCF (R63, the matrix). -/
def opcodeRowC : List (Option Form) :=
  [cell1 .cpyImm, cell1 .cmpIzx, noEntry, noEntry] ++
  [cell1 .cpyZp, cell1 .cmpZp, cell1 .decZp, noEntry] ++
  [cell0 .iny, cell1 .cmpImm, cell0 .dex, noEntry] ++
  [cell2 .cpyAbs, cell2 .cmpAbs, cell2 .decAbs, noEntry]

/-- Opcodes 0xD0 to 0xDF (R63, the matrix). -/
def opcodeRowD : List (Option Form) :=
  [cell1 .bne, cell1 .cmpIzy, noEntry, noEntry] ++
  [noEntry, cell1 .cmpZpx, cell1 .decZpx, noEntry] ++
  [cell0 .cld, cell2 .cmpAby, noEntry, noEntry] ++
  [noEntry, cell2 .cmpAbx, cell2 .decAbx, noEntry]

/-- Opcodes 0xE0 to 0xEF (R63, the matrix). -/
def opcodeRowE : List (Option Form) :=
  [cell1 .cpxImm, cell1 .sbcIzx, noEntry, noEntry] ++
  [cell1 .cpxZp, cell1 .sbcZp, cell1 .incZp, noEntry] ++
  [cell0 .inx, cell1 .sbcImm, cell0 .nop, noEntry] ++
  [cell2 .cpxAbs, cell2 .sbcAbs, cell2 .incAbs, noEntry]

/-- Opcodes 0xF0 to 0xFF (R63, the matrix). -/
def opcodeRowF : List (Option Form) :=
  [cell1 .beq, cell1 .sbcIzy, noEntry, noEntry] ++
  [noEntry, cell1 .sbcZpx, cell1 .incZpx, noEntry] ++
  [cell0 .sed, cell2 .sbcAby, noEntry, noEntry] ++
  [noEntry, cell2 .sbcAbx, cell2 .incAbx, noEntry]

/-- The 16 x 16 opcode matrix: row = high nibble, column = low nibble (R63). -/
def opcodeMatrix : List (List (Option Form)) :=
  [opcodeRow0, opcodeRow1, opcodeRow2, opcodeRow3] ++
  [opcodeRow4, opcodeRow5, opcodeRow6, opcodeRow7] ++
  [opcodeRow8, opcodeRow9, opcodeRowA, opcodeRowB] ++
  [opcodeRowC, opcodeRowD, opcodeRowE, opcodeRowF]

/-- The table lookup: what the opcode byte selects, or no entry (R63, R65, R69). -/
def formOf (op : Byte) : Option Form :=
  (opcodeMatrix.getD (op.toNat / 16) []).getD (op.toNat % 16) none

/-! ## The decoder -/

/-- Why bytes are not an instruction. -/
inductive DecodeError where
  /-- The first byte has no table entry (R65, R201). -/
  | illegalOpcode (op : Byte)
  /-- The list ends before the operand bytes of `op` do; a fetch from memory never meets this. -/
  | missingOperand (op : Byte)
  /-- There is no byte at all; a fetch from memory never meets this. -/
  | noBytes
  deriving DecidableEq, Repr

/-- The instruction at the head of a list of bytes and the bytes after it (R60 to R63, R65, R66). -/
def decode : List Byte → Except DecodeError (Instr × List Byte)
  | [] => .error .noBytes
  | op :: rest =>
    match formOf op with
    | none => .error (.illegalOpcode op)
    | some (.bare i) => .ok (i, rest)
    | some (.byte f) =>
      match rest with
      | b :: rest' => .ok (f b, rest')
      | [] => .error (.missingOperand op)
    | some (.word f) =>
      match rest with
      | lo :: hi :: rest' => .ok (f (joinBytes lo hi), rest')
      | _ => .error (.missingOperand op)

/-! ## The (operation, operand) view and the encoder -/

/-- The operation tag and the operand of an instruction (R63, R69). -/
def Instr.descriptor : Instr → Mnemonic × Operand
  | .ldaImm imm8 => (.lda, .immediate imm8)
  | .ldaZp zp8 => (.lda, .mem (.zeroPage zp8))
  | .ldaZpx zp8 => (.lda, .mem (.zeroPageX zp8))
  | .ldaAbs addr16 => (.lda, .mem (.absolute addr16))
  | .ldaAbx base16 => (.lda, .mem (.absoluteX base16))
  | .ldaAby base16 => (.lda, .mem (.absoluteY base16))
  | .ldaIzx zp8 => (.lda, .mem (.indirectX zp8))
  | .ldaIzy zp8 => (.lda, .mem (.indirectY zp8))
  | .ldxImm imm8 => (.ldx, .immediate imm8)
  | .ldxZp zp8 => (.ldx, .mem (.zeroPage zp8))
  | .ldxZpy zp8 => (.ldx, .mem (.zeroPageY zp8))
  | .ldxAbs addr16 => (.ldx, .mem (.absolute addr16))
  | .ldxAby base16 => (.ldx, .mem (.absoluteY base16))
  | .ldyImm imm8 => (.ldy, .immediate imm8)
  | .ldyZp zp8 => (.ldy, .mem (.zeroPage zp8))
  | .ldyZpx zp8 => (.ldy, .mem (.zeroPageX zp8))
  | .ldyAbs addr16 => (.ldy, .mem (.absolute addr16))
  | .ldyAbx base16 => (.ldy, .mem (.absoluteX base16))
  | .staZp zp8 => (.sta, .mem (.zeroPage zp8))
  | .staZpx zp8 => (.sta, .mem (.zeroPageX zp8))
  | .staAbs addr16 => (.sta, .mem (.absolute addr16))
  | .staAbx base16 => (.sta, .mem (.absoluteX base16))
  | .staAby base16 => (.sta, .mem (.absoluteY base16))
  | .staIzx zp8 => (.sta, .mem (.indirectX zp8))
  | .staIzy zp8 => (.sta, .mem (.indirectY zp8))
  | .stxZp zp8 => (.stx, .mem (.zeroPage zp8))
  | .stxZpy zp8 => (.stx, .mem (.zeroPageY zp8))
  | .stxAbs addr16 => (.stx, .mem (.absolute addr16))
  | .styZp zp8 => (.sty, .mem (.zeroPage zp8))
  | .styZpx zp8 => (.sty, .mem (.zeroPageX zp8))
  | .styAbs addr16 => (.sty, .mem (.absolute addr16))
  | .adcImm imm8 => (.adc, .immediate imm8)
  | .adcZp zp8 => (.adc, .mem (.zeroPage zp8))
  | .adcZpx zp8 => (.adc, .mem (.zeroPageX zp8))
  | .adcAbs addr16 => (.adc, .mem (.absolute addr16))
  | .adcAbx base16 => (.adc, .mem (.absoluteX base16))
  | .adcAby base16 => (.adc, .mem (.absoluteY base16))
  | .adcIzx zp8 => (.adc, .mem (.indirectX zp8))
  | .adcIzy zp8 => (.adc, .mem (.indirectY zp8))
  | .sbcImm imm8 => (.sbc, .immediate imm8)
  | .sbcZp zp8 => (.sbc, .mem (.zeroPage zp8))
  | .sbcZpx zp8 => (.sbc, .mem (.zeroPageX zp8))
  | .sbcAbs addr16 => (.sbc, .mem (.absolute addr16))
  | .sbcAbx base16 => (.sbc, .mem (.absoluteX base16))
  | .sbcAby base16 => (.sbc, .mem (.absoluteY base16))
  | .sbcIzx zp8 => (.sbc, .mem (.indirectX zp8))
  | .sbcIzy zp8 => (.sbc, .mem (.indirectY zp8))
  | .andImm imm8 => (.and, .immediate imm8)
  | .andZp zp8 => (.and, .mem (.zeroPage zp8))
  | .andZpx zp8 => (.and, .mem (.zeroPageX zp8))
  | .andAbs addr16 => (.and, .mem (.absolute addr16))
  | .andAbx base16 => (.and, .mem (.absoluteX base16))
  | .andAby base16 => (.and, .mem (.absoluteY base16))
  | .andIzx zp8 => (.and, .mem (.indirectX zp8))
  | .andIzy zp8 => (.and, .mem (.indirectY zp8))
  | .oraImm imm8 => (.ora, .immediate imm8)
  | .oraZp zp8 => (.ora, .mem (.zeroPage zp8))
  | .oraZpx zp8 => (.ora, .mem (.zeroPageX zp8))
  | .oraAbs addr16 => (.ora, .mem (.absolute addr16))
  | .oraAbx base16 => (.ora, .mem (.absoluteX base16))
  | .oraAby base16 => (.ora, .mem (.absoluteY base16))
  | .oraIzx zp8 => (.ora, .mem (.indirectX zp8))
  | .oraIzy zp8 => (.ora, .mem (.indirectY zp8))
  | .eorImm imm8 => (.eor, .immediate imm8)
  | .eorZp zp8 => (.eor, .mem (.zeroPage zp8))
  | .eorZpx zp8 => (.eor, .mem (.zeroPageX zp8))
  | .eorAbs addr16 => (.eor, .mem (.absolute addr16))
  | .eorAbx base16 => (.eor, .mem (.absoluteX base16))
  | .eorAby base16 => (.eor, .mem (.absoluteY base16))
  | .eorIzx zp8 => (.eor, .mem (.indirectX zp8))
  | .eorIzy zp8 => (.eor, .mem (.indirectY zp8))
  | .bitZp zp8 => (.bit, .mem (.zeroPage zp8))
  | .bitAbs addr16 => (.bit, .mem (.absolute addr16))
  | .aslAcc => (.asl, .implied)
  | .aslZp zp8 => (.asl, .mem (.zeroPage zp8))
  | .aslZpx zp8 => (.asl, .mem (.zeroPageX zp8))
  | .aslAbs addr16 => (.asl, .mem (.absolute addr16))
  | .aslAbx base16 => (.asl, .mem (.absoluteX base16))
  | .lsrAcc => (.lsr, .implied)
  | .lsrZp zp8 => (.lsr, .mem (.zeroPage zp8))
  | .lsrZpx zp8 => (.lsr, .mem (.zeroPageX zp8))
  | .lsrAbs addr16 => (.lsr, .mem (.absolute addr16))
  | .lsrAbx base16 => (.lsr, .mem (.absoluteX base16))
  | .rolAcc => (.rol, .implied)
  | .rolZp zp8 => (.rol, .mem (.zeroPage zp8))
  | .rolZpx zp8 => (.rol, .mem (.zeroPageX zp8))
  | .rolAbs addr16 => (.rol, .mem (.absolute addr16))
  | .rolAbx base16 => (.rol, .mem (.absoluteX base16))
  | .rorAcc => (.ror, .implied)
  | .rorZp zp8 => (.ror, .mem (.zeroPage zp8))
  | .rorZpx zp8 => (.ror, .mem (.zeroPageX zp8))
  | .rorAbs addr16 => (.ror, .mem (.absolute addr16))
  | .rorAbx base16 => (.ror, .mem (.absoluteX base16))
  | .cmpImm imm8 => (.cmp, .immediate imm8)
  | .cmpZp zp8 => (.cmp, .mem (.zeroPage zp8))
  | .cmpZpx zp8 => (.cmp, .mem (.zeroPageX zp8))
  | .cmpAbs addr16 => (.cmp, .mem (.absolute addr16))
  | .cmpAbx base16 => (.cmp, .mem (.absoluteX base16))
  | .cmpAby base16 => (.cmp, .mem (.absoluteY base16))
  | .cmpIzx zp8 => (.cmp, .mem (.indirectX zp8))
  | .cmpIzy zp8 => (.cmp, .mem (.indirectY zp8))
  | .cpxImm imm8 => (.cpx, .immediate imm8)
  | .cpxZp zp8 => (.cpx, .mem (.zeroPage zp8))
  | .cpxAbs addr16 => (.cpx, .mem (.absolute addr16))
  | .cpyImm imm8 => (.cpy, .immediate imm8)
  | .cpyZp zp8 => (.cpy, .mem (.zeroPage zp8))
  | .cpyAbs addr16 => (.cpy, .mem (.absolute addr16))
  | .incZp zp8 => (.inc, .mem (.zeroPage zp8))
  | .incZpx zp8 => (.inc, .mem (.zeroPageX zp8))
  | .incAbs addr16 => (.inc, .mem (.absolute addr16))
  | .incAbx base16 => (.inc, .mem (.absoluteX base16))
  | .decZp zp8 => (.dec, .mem (.zeroPage zp8))
  | .decZpx zp8 => (.dec, .mem (.zeroPageX zp8))
  | .decAbs addr16 => (.dec, .mem (.absolute addr16))
  | .decAbx base16 => (.dec, .mem (.absoluteX base16))
  | .inx => (.inx, .implied)
  | .iny => (.iny, .implied)
  | .dex => (.dex, .implied)
  | .dey => (.dey, .implied)
  | .bcc rel8 => (.bcc, .relative rel8)
  | .bcs rel8 => (.bcs, .relative rel8)
  | .beq rel8 => (.beq, .relative rel8)
  | .bne rel8 => (.bne, .relative rel8)
  | .bmi rel8 => (.bmi, .relative rel8)
  | .bpl rel8 => (.bpl, .relative rel8)
  | .bvc rel8 => (.bvc, .relative rel8)
  | .bvs rel8 => (.bvs, .relative rel8)
  | .jmpAbs addr16 => (.jmp, .mem (.absolute addr16))
  | .jmpInd ptr16 => (.jmp, .mem (.indirect ptr16))
  | .jsr addr16 => (.jsr, .mem (.absolute addr16))
  | .rts => (.rts, .implied)
  | .pha => (.pha, .implied)
  | .php => (.php, .implied)
  | .pla => (.pla, .implied)
  | .plp => (.plp, .implied)
  | .rti => (.rti, .implied)
  | .clc => (.clc, .implied)
  | .sec => (.sec, .implied)
  | .cld => (.cld, .implied)
  | .sed => (.sed, .implied)
  | .cli => (.cli, .implied)
  | .sei => (.sei, .implied)
  | .clv => (.clv, .implied)
  | .tax => (.tax, .implied)
  | .tay => (.tay, .implied)
  | .txa => (.txa, .implied)
  | .tya => (.tya, .implied)
  | .tsx => (.tsx, .implied)
  | .txs => (.txs, .implied)
  | .brk => (.brk, .implied)
  | .nop => (.nop, .implied)

/-- The operation tag of an instruction (R63). -/
def Instr.mnemonic (i : Instr) : Mnemonic := i.descriptor.1

/-- The operand of an instruction (R62, R81 to R92). -/
def Instr.operand (i : Instr) : Operand := i.descriptor.2

/-- The mode tag of an operand in memory. -/
def MemOperand.mode : MemOperand → Mode
  | .zeroPage _ => .zeroPage
  | .zeroPageX _ => .zeroPageX
  | .zeroPageY _ => .zeroPageY
  | .absolute _ => .absolute
  | .absoluteX _ => .absoluteX
  | .absoluteY _ => .absoluteY
  | .indirect _ => .indirect
  | .indirectX _ => .indirectX
  | .indirectY _ => .indirectY

/-- The mode tag of an operand. -/
def Operand.mode : Operand → Mode
  | .implied => .implied
  | .immediate _ => .immediate
  | .mem m => m.mode
  | .relative _ => .relative

/-- A 16-bit operand as its two operand bytes, low byte first (R44, R61). -/
def wordBytes (w : Addr) : List Byte := [lowByte w, highByte w]

/-- The operand bytes of an operand in memory (R61). -/
def MemOperand.bytes : MemOperand → List Byte
  | .zeroPage b => [b]
  | .zeroPageX b => [b]
  | .zeroPageY b => [b]
  | .absolute w => wordBytes w
  | .absoluteX w => wordBytes w
  | .absoluteY w => wordBytes w
  | .indirect w => wordBytes w
  | .indirectX b => [b]
  | .indirectY b => [b]

/-- The operand bytes of an operand in increasing address order (R61). -/
def Operand.bytes : Operand → List Byte
  | .implied => []
  | .immediate b => [b]
  | .mem m => m.bytes
  | .relative b => [b]

/-- The raw form of an instruction, which WellFormed.lean checks. -/
def Instr.raw (i : Instr) : RawInstr := ⟨i.mnemonic, i.operand.mode, i.operand.bytes⟩

/-- An instruction is well formed when its raw form is (R61, R70). -/
def Instr.wf (i : Instr) : Bool := i.raw.wf

/-- The opcode byte of an instruction (R63, the table by mnemonic; R64). -/
def Instr.opcode : Instr → Byte
  | .ldaImm _ => 0xA9#8
  | .ldaZp _ => 0xA5#8
  | .ldaZpx _ => 0xB5#8
  | .ldaAbs _ => 0xAD#8
  | .ldaAbx _ => 0xBD#8
  | .ldaAby _ => 0xB9#8
  | .ldaIzx _ => 0xA1#8
  | .ldaIzy _ => 0xB1#8
  | .ldxImm _ => 0xA2#8
  | .ldxZp _ => 0xA6#8
  | .ldxZpy _ => 0xB6#8
  | .ldxAbs _ => 0xAE#8
  | .ldxAby _ => 0xBE#8
  | .ldyImm _ => 0xA0#8
  | .ldyZp _ => 0xA4#8
  | .ldyZpx _ => 0xB4#8
  | .ldyAbs _ => 0xAC#8
  | .ldyAbx _ => 0xBC#8
  | .staZp _ => 0x85#8
  | .staZpx _ => 0x95#8
  | .staAbs _ => 0x8D#8
  | .staAbx _ => 0x9D#8
  | .staAby _ => 0x99#8
  | .staIzx _ => 0x81#8
  | .staIzy _ => 0x91#8
  | .stxZp _ => 0x86#8
  | .stxZpy _ => 0x96#8
  | .stxAbs _ => 0x8E#8
  | .styZp _ => 0x84#8
  | .styZpx _ => 0x94#8
  | .styAbs _ => 0x8C#8
  | .adcImm _ => 0x69#8
  | .adcZp _ => 0x65#8
  | .adcZpx _ => 0x75#8
  | .adcAbs _ => 0x6D#8
  | .adcAbx _ => 0x7D#8
  | .adcAby _ => 0x79#8
  | .adcIzx _ => 0x61#8
  | .adcIzy _ => 0x71#8
  | .sbcImm _ => 0xE9#8
  | .sbcZp _ => 0xE5#8
  | .sbcZpx _ => 0xF5#8
  | .sbcAbs _ => 0xED#8
  | .sbcAbx _ => 0xFD#8
  | .sbcAby _ => 0xF9#8
  | .sbcIzx _ => 0xE1#8
  | .sbcIzy _ => 0xF1#8
  | .andImm _ => 0x29#8
  | .andZp _ => 0x25#8
  | .andZpx _ => 0x35#8
  | .andAbs _ => 0x2D#8
  | .andAbx _ => 0x3D#8
  | .andAby _ => 0x39#8
  | .andIzx _ => 0x21#8
  | .andIzy _ => 0x31#8
  | .oraImm _ => 0x09#8
  | .oraZp _ => 0x05#8
  | .oraZpx _ => 0x15#8
  | .oraAbs _ => 0x0D#8
  | .oraAbx _ => 0x1D#8
  | .oraAby _ => 0x19#8
  | .oraIzx _ => 0x01#8
  | .oraIzy _ => 0x11#8
  | .eorImm _ => 0x49#8
  | .eorZp _ => 0x45#8
  | .eorZpx _ => 0x55#8
  | .eorAbs _ => 0x4D#8
  | .eorAbx _ => 0x5D#8
  | .eorAby _ => 0x59#8
  | .eorIzx _ => 0x41#8
  | .eorIzy _ => 0x51#8
  | .bitZp _ => 0x24#8
  | .bitAbs _ => 0x2C#8
  | .aslAcc => 0x0A#8
  | .aslZp _ => 0x06#8
  | .aslZpx _ => 0x16#8
  | .aslAbs _ => 0x0E#8
  | .aslAbx _ => 0x1E#8
  | .lsrAcc => 0x4A#8
  | .lsrZp _ => 0x46#8
  | .lsrZpx _ => 0x56#8
  | .lsrAbs _ => 0x4E#8
  | .lsrAbx _ => 0x5E#8
  | .rolAcc => 0x2A#8
  | .rolZp _ => 0x26#8
  | .rolZpx _ => 0x36#8
  | .rolAbs _ => 0x2E#8
  | .rolAbx _ => 0x3E#8
  | .rorAcc => 0x6A#8
  | .rorZp _ => 0x66#8
  | .rorZpx _ => 0x76#8
  | .rorAbs _ => 0x6E#8
  | .rorAbx _ => 0x7E#8
  | .cmpImm _ => 0xC9#8
  | .cmpZp _ => 0xC5#8
  | .cmpZpx _ => 0xD5#8
  | .cmpAbs _ => 0xCD#8
  | .cmpAbx _ => 0xDD#8
  | .cmpAby _ => 0xD9#8
  | .cmpIzx _ => 0xC1#8
  | .cmpIzy _ => 0xD1#8
  | .cpxImm _ => 0xE0#8
  | .cpxZp _ => 0xE4#8
  | .cpxAbs _ => 0xEC#8
  | .cpyImm _ => 0xC0#8
  | .cpyZp _ => 0xC4#8
  | .cpyAbs _ => 0xCC#8
  | .incZp _ => 0xE6#8
  | .incZpx _ => 0xF6#8
  | .incAbs _ => 0xEE#8
  | .incAbx _ => 0xFE#8
  | .decZp _ => 0xC6#8
  | .decZpx _ => 0xD6#8
  | .decAbs _ => 0xCE#8
  | .decAbx _ => 0xDE#8
  | .inx => 0xE8#8
  | .iny => 0xC8#8
  | .dex => 0xCA#8
  | .dey => 0x88#8
  | .bcc _ => 0x90#8
  | .bcs _ => 0xB0#8
  | .beq _ => 0xF0#8
  | .bne _ => 0xD0#8
  | .bmi _ => 0x30#8
  | .bpl _ => 0x10#8
  | .bvc _ => 0x50#8
  | .bvs _ => 0x70#8
  | .jmpAbs _ => 0x4C#8
  | .jmpInd _ => 0x6C#8
  | .jsr _ => 0x20#8
  | .rts => 0x60#8
  | .pha => 0x48#8
  | .php => 0x08#8
  | .pla => 0x68#8
  | .plp => 0x28#8
  | .rti => 0x40#8
  | .clc => 0x18#8
  | .sec => 0x38#8
  | .cld => 0xD8#8
  | .sed => 0xF8#8
  | .cli => 0x58#8
  | .sei => 0x78#8
  | .clv => 0xB8#8
  | .tax => 0xAA#8
  | .tay => 0xA8#8
  | .txa => 0x8A#8
  | .tya => 0x98#8
  | .tsx => 0xBA#8
  | .txs => 0x9A#8
  | .brk => 0x00#8
  | .nop => 0xEA#8

/-- The bytes of an instruction: the opcode, then the operand bytes (R60, R61). -/
def encode (i : Instr) : List Byte := i.opcode :: i.operand.bytes

/-- The length of an instruction in bytes: the opcode and its operand bytes (R60). -/
def Instr.length (i : Instr) : Nat := (encode i).length

/-! ## Words as opcode_table.json numbers them -/

/-- The low `nbits` bits of `w` as three bytes, bit 0 of `w` the least significant bit of the first. -/
def tableBytes (nbits w : Nat) : List Byte :=
  let v := w % 2 ^ nbits
  [BitVec.ofNat 8 v, BitVec.ofNat 8 (v / 256), BitVec.ofNat 8 (v / 65536)]

/-- The instruction the decoder reads from an instruction word numbered as the opcode table numbers it;
bits above `nbits` are 0 (operand bytes of zeros). -/
def decodeTableWord (nbits w : Nat) : Option Instr :=
  match decode (tableBytes nbits w) with
  | .ok (i, _) => some i
  | .error _ => none

end Sys2Proof
end

