-- ==== Sys2Proof/Machine/State.lean ====
section
/-! DEFINITION. The state of a session (10_state.md): the registers, the run state, the memory behind the
port, and the environment's schedule; the ways a step can end; the state after reset. Plain data. -/

namespace Sys2Proof.Machine

/-- Memory as the list of the bytes that differ from what an unlisted address reads as, addresses strictly
rising (R30, R40, R56; the canonical form is `Memory.wf` in Ops.lean). -/
abbrev Memory := List Host.Cell

/-- The eight bits of the status register, by the spec's letters (R15): C Carry, Z Zero,
I InterruptDisable, D Decimal, B Break, U Unused, V Overflow, N Negative. -/
inductive Flag where
  | c | z | i | d | b | u | v | n
  deriving DecidableEq, Repr

/-- The byte registers a program computes with (R10 to R13). -/
inductive Reg where
  | a | x | y | sp
  deriving DecidableEq, Repr

/-- The fault record (R26): the kind, the opcode byte and the address it was read from. The spec gives a
fault an effect on the state (`run` becomes `Faulted` with this record and nothing else changes, R201), so
a fault is a NEXT state of a step and no step of this model ends in `Host.Outcome.fault` (Log 3). -/
inductive Fault where
  /-- Raised by the step when the byte at PC has no table entry (R201). Safe: the spec's own effect. -/
  | illegalOpcode (opcode : Byte) (address : Addr)
  /-- The second fault kind the spec names (R202). No step raises it, since every (operation, mode) pair of
  the table has a meaning (R70); it is kept because R26 requires the two kinds to be distinct values.
  Safe: `Obligations.FaultOnlyAtAnIllegalOpcode` states that it is unreachable. -/
  | unsupportedAddressingMode (opcode : Byte) (address : Addr)
  deriving DecidableEq, Repr

/-- Why the model declines to give an instruction a meaning. -/
inductive Refusal where
  /-- Raised by an arm of `exec` whose instruction has no meaning yet; no arm of this model does. Safe. -/
  | notModelled (mnemonic : String)
  deriving DecidableEq, Repr

/-- The run state (R25). -/
inductive RunState where
  | running
  | halted
  | faulted (record : Fault)
  deriving DecidableEq, Repr

/-- One action of the environment at an instruction boundary (R2, D2). -/
inductive Event where
  /-- The environment asks the core to step (R80). -/
  | step
  /-- A maskable interrupt request is offered (R205, R206). -/
  | irq
  /-- A non-maskable interrupt request is offered (R205, R207). -/
  | nmi
  /-- The environment resets the core (R230, R233). -/
  | reset
  /-- The environment writes one byte of memory (R55, R234, D34). -/
  | write (address : Addr) (value : Byte)
  deriving DecidableEq, Repr

/-- The state of a session: one core, its memory, and what the environment is going to do. -/
structure State where
  /-- Accumulator (R10). -/
  a : Byte
  /-- Index register X (R11). -/
  x : Byte
  /-- Index register Y (R12). -/
  y : Byte
  /-- Stack pointer, an offset into page one (R13). -/
  sp : Byte
  /-- Program counter (R14). -/
  pc : Addr
  /-- Status register (R15). -/
  p : Byte
  /-- Run state with the fault record (R25, R26). -/
  run : RunState
  /-- The 65,536 bytes behind the memory port (R30, R40). -/
  mem : Memory
  /-- The environment's schedule, the next action first; when it is empty the environment asks the core to
  step (R205, D16). The model's own field: the core never reads it (Log 1). -/
  inputs : List Event
  deriving DecidableEq, Repr

/-- What the environment can read of the core between steps (R31). -/
structure Snapshot where
  a : Byte
  x : Byte
  y : Byte
  sp : Byte
  pc : Addr
  p : Byte
  run : RunState
  deriving DecidableEq, Repr

/-- How an instruction or a step ends. -/
abbrev Result := Host.Outcome State Fault Refusal

/-- The state after reset (R230, R231, R32) on the zero-filled memory of `initialize()` (R56): PC is the
word at 0xFFFC/0xFFFD, here 0x0000 (R234); P is 0x20, only Unused set. The environment's schedule is empty
(DESIGN CHOICE, Log 1). -/
def State.reset : State where
  a := 0x00#8
  x := 0x00#8
  y := 0x00#8
  sp := 0xFF#8
  pc := 0x0000#16
  p := 0x20#8
  run := .running
  mem := []
  inputs := []

end Sys2Proof.Machine
end

