-- ==== Sys2Proof/Machine/Flags.lean ====
section
/-! DEFINITION. The status register's bits (R15 to R24), Zero and Negative of a result (R96), and every
flag computation of the ALU: addition and subtraction (R110, R111), compares (R130 to R132), shifts and
rotates (R120 to R123). -/

namespace Sys2Proof.Machine

/-! ## Single bits of the status register -/

/-- The bit position of a flag in P (R15). -/
def Flag.position : Flag → Nat
  | .c => 0
  | .z => 1
  | .i => 2
  | .d => 3
  | .b => 4
  | .u => 5
  | .v => 6
  | .n => 7

/-- The mask of a flag in P (R15). -/
def Flag.mask (f : Flag) : Byte := 1#8 <<< f.position

/-- Bit `f` of a status byte. -/
def getFlag (f : Flag) (p : Byte) : Bool := p.getLsbD f.position

/-- A status byte with bit `f` written; exactly one bit is masked (R24). -/
def putFlag (f : Flag) (value : Bool) (p : Byte) : Byte :=
  if value then p ||| f.mask else p &&& ~~~f.mask

/-- The live value of a flag. -/
def State.flag (s : State) (f : Flag) : Bool := getFlag f s.p

/-- Write one flag of the live status register. -/
def State.setFlag (f : Flag) (value : Bool) (s : State) : State := { s with p := putFlag f value s.p }

/-- Zero: set exactly when the byte is 0x00 (R17, R96). -/
def isZero (v : Byte) : Bool := decide (v = 0x00#8)

/-- Negative: bit 7 of the byte (R23, R96). -/
def isNegative (v : Byte) : Bool := v.getLsbD 7

/-- `SetZN(v)` (R96). -/
def setZN (v : Byte) (s : State) : State := (s.setFlag .z (isZero v)).setFlag .n (isNegative v)

/-! ## Addition with carry (R110, R111) -/

/-- The exact sum `A + data + carry`, an integer from 0 to 511 (R110). -/
def addSum (acc data : Byte) (carry : Bool) : Nat := acc.toNat + data.toNat + carry.toNat

/-- The low byte of the sum (R110). -/
def addResult (acc data : Byte) (carry : Bool) : Byte := BitVec.ofNat 8 (addSum acc data carry)

/-- Carry out: the sum is above 255 (R110). -/
def addCarry (acc data : Byte) (carry : Bool) : Bool := decide (255 < addSum acc data carry)

/-- Overflow: `(~(A ^ data)) & (A ^ sum) & 0x80` is not zero (R110). -/
def addOverflow (acc data : Byte) (carry : Bool) : Bool :=
  decide ((~~~(acc ^^^ data)) &&& (acc ^^^ addResult acc data carry) &&& 0x80#8 ≠ 0x00#8)

/-- `ADC` of `data`: C, Z, V, N from the sum and the low byte into A (R110). `P.D` is not consulted (D7). -/
def addToA (data : Byte) (s : State) : State :=
  let carry := s.flag .c
  let result := addResult s.a data carry
  let s1 := s.setFlag .c (addCarry s.a data carry)
  let s2 := s1.setFlag .v (addOverflow s.a data carry)
  { setZN result s2 with a := result }

/-- The one's complement of the operand that `SBC` adds (R111). -/
def complement (data : Byte) : Byte := data ^^^ 0xFF#8

/-! ## Compares (R130 to R132) -/

/-- The 16-bit temporary `register - operand` (R130). -/
def compareDifference (reg data : Byte) : Addr := reg.setWidth 16 - data.setWidth 16

/-- Carry of a compare: the register is not below the operand, as unsigned bytes (R130). -/
def compareCarry (reg data : Byte) : Bool := decide (data.toNat ≤ reg.toNat)

/-- A compare of `reg` with `data`: C from the unsigned order, Z and N from the low byte of the
difference (R130 to R132). -/
def compareWith (reg data : Byte) (s : State) : State :=
  setZN (lowByte (compareDifference reg data)) (s.setFlag .c (compareCarry reg data))

/-! ## Shifts and rotates (R120 to R123) -/

/-- What a shift makes of a byte: the 8-bit result and the bit shifted out. -/
structure Shifted where
  result : Byte
  carry : Bool
  deriving DecidableEq, Repr

/-- A byte with `bit` at bit 0 and zeros above. -/
def bitZero (bit : Bool) : Byte := if bit then 0x01#8 else 0x00#8

/-- `ASL` (R120); the carry in is ignored. -/
def shiftLeft (v : Byte) (_carry : Bool) : Shifted := ⟨v <<< 1, v.getLsbD 7⟩

/-- `LSR` (R121); the carry in is ignored. -/
def shiftRight (v : Byte) (_carry : Bool) : Shifted := ⟨v >>> 1, v.getLsbD 0⟩

/-- `ROL`: the old carry enters at bit 0, old bit 7 leaves into the carry (R122, D26). -/
def rotateLeft (v : Byte) (carry : Bool) : Shifted := ⟨v <<< 1 ||| bitZero carry, v.getLsbD 7⟩

/-- `ROR`: the old carry enters at bit 7, old bit 0 leaves into the carry (R123, D26). -/
def rotateRight (v : Byte) (carry : Bool) : Shifted := ⟨v >>> 1 ||| bitZero carry <<< 7, v.getLsbD 0⟩

/-- The flags of a shift or rotate: C the bit shifted out, Z and N from the result (R120 to R124). -/
def setShiftFlags (out : Shifted) (s : State) : State := setZN out.result (s.setFlag .c out.carry)

end Sys2Proof.Machine
end

