-- ==== Sys2Proof/Machine/Ops.lean ====
section
/-! DEFINITION. The named operations over registers and memory: the memory port (R41 to R44), register
accessors, `Push8` and `Pop8` (R94, R95), raising a fault (R201, R202), interrupt entry and the return from
it (R206, R207, R169), reset (R230), the inspection interface (R31). -/

namespace Sys2Proof.Machine

/-! ## Memory as data (R40, R41, R56) -/

/-- The byte at an address; an unlisted address reads as `Config.unwrittenByte` (R41, R56). -/
def Memory.read : Memory → Nat → Byte
  | [], _ => Config.unwrittenByte
  | (k, v) :: m, addr => if k = addr then v else Memory.read m addr

/-- The list without any entry for an address. -/
def Memory.remove (m : Memory) (addr : Nat) : Memory := m.filter (fun cell => cell.1 != addr)

/-- Put an entry at its place in a rising list. -/
def Memory.place : Memory → Nat → Byte → Memory
  | [], addr, value => [(addr, value)]
  | (k, v) :: m, addr, value =>
    if addr < k then (addr, value) :: (k, v) :: m else (k, v) :: Memory.place m addr value

/-- Store one byte; writing what an unlisted address reads as leaves no entry (R41). -/
def Memory.write (m : Memory) (addr : Nat) (value : Byte) : Memory :=
  if value = Config.unwrittenByte then m.remove addr else (m.remove addr).place addr value

/-- The canonical form: addresses strictly rising and inside the address space, and no entry equal to what
an unlisted address reads as. Equal memories in this form are equal lists. -/
def Memory.wf : Memory → Bool
  | [] => true
  | (k, v) :: m =>
    decide (k < Config.memorySize) && v != Config.unwrittenByte &&
      m.all (fun cell => decide (k < cell.1)) && Memory.wf m

/-! ## The memory port (R41 to R44) -/

/-- `MemRead(addr, 1)` (R41). -/
def State.readByte (s : State) (addr : Addr) : Byte := s.mem.read addr.toNat

/-- `MemWrite(addr, 1, v)` (R41). -/
def State.writeByte (addr : Addr) (value : Byte) (s : State) : State :=
  { s with mem := s.mem.write addr.toNat value }

/-- `MemRead16(addr)`: little-endian, the high byte at the next address modulo 65,536 (R44). -/
def State.readWord (s : State) (addr : Addr) : Addr := joinBytes (s.readByte addr) (s.readByte (addr + 1))

/-! ## Registers (R10 to R14, R25) -/

/-- Write the accumulator (R10). -/
def State.setA (v : Byte) (s : State) : State := { s with a := v }

/-- Write index register X (R11). -/
def State.setX (v : Byte) (s : State) : State := { s with x := v }

/-- Write index register Y (R12). -/
def State.setY (v : Byte) (s : State) : State := { s with y := v }

/-- Write the stack pointer (R13). -/
def State.setSP (v : Byte) (s : State) : State := { s with sp := v }

/-- Write the program counter (R14). -/
def State.setPC (v : Addr) (s : State) : State := { s with pc := v }

/-- Write the whole status register (R15). -/
def State.setP (v : Byte) (s : State) : State := { s with p := v }

/-- Write the run state (R25). -/
def State.setRun (r : RunState) (s : State) : State := { s with run := r }

/-- Replace what is left of the environment's schedule (Log 1). -/
def State.setInputs (es : List Event) (s : State) : State := { s with inputs := es }

/-- Read a byte register by name. -/
def State.reg (s : State) : Reg → Byte
  | .a => s.a
  | .x => s.x
  | .y => s.y
  | .sp => s.sp

/-! ## The stack (R13, R94, R95, R243) -/

/-- The address in page one that a stack pointer value names (R13). -/
def stackAddr (sp : Byte) : Addr := Config.stackBase + sp.setWidth 16

/-- `Push8(v)`: write at 0x0100 + SP, then decrement SP modulo 256 (R94). -/
def push8 (v : Byte) (s : State) : State := (s.writeByte (stackAddr s.sp) v).setSP (s.sp - 1)

/-- The state after `Pop8()`: SP incremented modulo 256, nothing else (R95). -/
def pop8 (s : State) : State := s.setSP (s.sp + 1)

/-- The byte `Pop8()` returns: the one at 0x0100 + SP after the increment (R95). -/
def popped8 (s : State) : Byte := s.readByte (stackAddr (s.sp + 1))

/-- Push a 16-bit value, high byte first (R44, R155, R206). -/
def push16 (w : Addr) (s : State) : State := push8 (lowByte w) (push8 (highByte w) s)

/-- The state after popping a 16-bit value. -/
def pop16 (s : State) : State := pop8 (pop8 s)

/-- The 16-bit value two pops return, low byte first (R44, R156, R169). -/
def popped16 (s : State) : Addr := joinBytes (popped8 s) (popped8 (pop8 s))

/-! ## Faults (R201, R202) -/

/-- Enter the fatal-fault run state; every register and every memory cell keeps its value (R201, R202). -/
def raiseFault (f : Fault) (s : State) : State := s.setRun (.faulted f)

/-! ## Taking an interrupt and returning from it (R206, R207, R169, R213) -/

/-- The status as an interrupt entry pushes it and keeps it live before I is set: Break cleared, Unused set,
the other bits as they are (R206, D14). -/
def interruptStatus (p : Byte) : Byte := putFlag .u true (putFlag .b false p)

/-- The entry sequence shared by IRQ and NMI: push PC high, PC low and the status with B = 0 and U = 1, set
InterruptDisable, load PC from the vector (R206, R207, R213). -/
def interruptEntry (vector : Addr) (s : State) : State :=
  let s1 := push16 s.pc s
  let s2 := s1.setP (interruptStatus s1.p)
  let s3 := push8 s2.p s2
  let s4 := s3.setFlag .i true
  s4.setPC (s4.readWord vector)

/-- An `Irq` event at an instruction boundary: nothing outside `Running` (R212), dropped while I is set
(R205, R210), else the entry through 0xFFFE/0xFFFF (R206). -/
def offerIrq (s : State) : State :=
  match s.run with
  | .running => if s.flag .i then s else interruptEntry Config.irqVector s
  | .halted => s
  | .faulted _ => s

/-- An `Nmi` event at an instruction boundary: nothing outside `Running` (R212), else the entry through
0xFFFA/0xFFFB whatever I holds (R207, R210). -/
def offerNmi (s : State) : State :=
  match s.run with
  | .running => interruptEntry Config.nmiVector s
  | .halted => s
  | .faulted _ => s

/-- The status a return from interrupt restores: the pulled byte with Break and Unused cleared (R169). -/
def returnStatus (byte : Byte) : Byte := putFlag .u false (putFlag .b false byte)

/-- Return from interrupt: pull the status, then PC low and high, with no adjustment (R169, R211). -/
def interruptReturn (s : State) : State :=
  let s1 := (pop8 s).setP (returnStatus (popped8 s))
  (pop16 s1).setPC (popped16 s1)

/-! ## Reset (R230 to R233) -/

/-- The reset sequence, from any run state; memory is not touched (R230, R231, R232, R233). -/
def resetCore (s : State) : State :=
  let s1 := s.setPC (s.readWord Config.resetVector)
  let s2 := ((s1.setA 0x00#8).setX 0x00#8).setY 0x00#8
  let s3 := (s2.setSP 0xFF#8).setP 0x00#8
  (s3.setFlag .u true).setRun .running

/-! ## Inspection (R31) -/

/-- The register snapshot the environment can take at any boundary (R31). -/
def State.snapshot (s : State) : Snapshot := ⟨s.a, s.x, s.y, s.sp, s.pc, s.p, s.run⟩

/-- The full memory dump: the byte at every address, from 0x0000 to 0xFFFF (R31, R55). -/
def State.dump (s : State) : List Byte := (List.range Config.memorySize).map s.mem.read

end Sys2Proof.Machine
end

