-- ==== Sys2Proof/Machine/Operands.lean ====
section
/-! DEFINITION. The twelve addressing modes (R81 to R92): effective addresses and operand values. A meaning
runs with PC already past the whole instruction (R97), and its operand bytes are those of the instruction
as it was fetched (R54). Page crossings have no effect (R99). -/

namespace Sys2Proof.Machine

/-- A zero-page byte as an address, 0x0000 to 0x00FF (R62, R83). -/
def zeroPageAddr (b : Byte) : Addr := b.setWidth 16

/-- The pointer at a zero-page location, read low byte then high byte, its high byte at the next location
modulo 256 (R91, R92, D10). -/
def State.zeroPagePointer (s : State) (zp : Byte) : Addr :=
  joinBytes (s.readByte (zeroPageAddr zp)) (s.readByte (zeroPageAddr (zp + 1)))

/-- The effective address of an operand in memory (R83 to R88, R90 to R92). -/
def effAddr (m : MemOperand) (s : State) : Addr :=
  match m with
  | .zeroPage zp8 => zeroPageAddr zp8
  | .zeroPageX zp8 => zeroPageAddr (zp8 + s.x)
  | .zeroPageY zp8 => zeroPageAddr (zp8 + s.y)
  | .absolute addr16 => addr16
  | .absoluteX base16 => base16 + s.x.setWidth 16
  | .absoluteY base16 => base16 + s.y.setWidth 16
  | .indirect ptr16 => s.readWord ptr16
  | .indirectX zp8 => s.zeroPagePointer (zp8 + s.x)
  | .indirectY zp8 => s.zeroPagePointer (zp8 + s.y)

/-- The `data` half of the Operand/Address Result (R80): the accumulator for IMPLIED (R81), the byte itself
for IMMEDIATE (R82) and RELATIVE (R89), the byte at the effective address otherwise. -/
def operandData (o : Operand) (s : State) : Byte :=
  match o with
  | .implied => s.a
  | .immediate imm8 => imm8
  | .mem m => s.readByte (effAddr m s)
  | .relative rel8 => rel8

/-- The `address` half of the Operand/Address Result (R80): none for IMPLIED and RELATIVE, which have no
effective address (R81, R89, U5); the operand byte's own address for IMMEDIATE (R82), which is PC - 1 once
PC is past the instruction. -/
def operandAddress (o : Operand) (s : State) : Option Addr :=
  match o with
  | .implied => none
  | .immediate _ => some (s.pc - 1)
  | .mem m => some (effAddr m s)
  | .relative _ => none

/-- A branch displacement widened to 16 bits: `delta | 0xFF00` when bit 7 is set (R62, R89). -/
def signExtend16 (b : Byte) : Addr :=
  if b.getLsbD 7 then b.setWidth 16 ||| 0xFF00#16 else b.setWidth 16

/-- Where a taken branch goes: PC, already past the displacement byte, plus the displacement modulo 65,536
(R89, R145). -/
def branchTarget (rel8 : Byte) (s : State) : Addr := s.pc + signExtend16 rel8

end Sys2Proof.Machine
end

