-- ==== Sys2Proof/Machine/LoadStore.lean ====
section
/-! DEFINITION. Loads and stores (41_load_store.md, R100 to R105). -/

namespace Sys2Proof.Machine

/-- Put a byte into A, Z and N from it: loads, transfers and `PLA` (R100, R167, R187, R188). -/
def moveToA (v : Byte) (s : State) : State := setZN v (s.setA v)

/-- Put a byte into X, Z and N from it (R101, R135, R137, R185, R189). -/
def moveToX (v : Byte) (s : State) : State := setZN v (s.setX v)

/-- Put a byte into Y, Z and N from it (R102, R136, R138, R186). -/
def moveToY (v : Byte) (s : State) : State := setZN v (s.setY v)

/-- Load A with the operand (R100). -/
def loadA (o : Operand) (s : State) : State := moveToA (operandData o s) s

/-- Load X with the operand (R101). -/
def loadX (o : Operand) (s : State) : State := moveToX (operandData o s) s

/-- Load Y with the operand (R102). -/
def loadY (o : Operand) (s : State) : State := moveToY (operandData o s) s

/-- `LDA`, IMMEDIATE: copy the operand into A; Z and N from it (R100). -/
def execLdaImm (imm8 : Byte) (s : State) : Result := .next (loadA (.immediate imm8) s)

/-- `LDA`, ZERO_PAGE: copy the operand into A; Z and N from it (R100). -/
def execLdaZp (zp8 : Byte) (s : State) : Result := .next (loadA (.mem (.zeroPage zp8)) s)

/-- `LDA`, ZERO_PAGE_X: copy the operand into A; Z and N from it (R100). -/
def execLdaZpx (zp8 : Byte) (s : State) : Result := .next (loadA (.mem (.zeroPageX zp8)) s)

/-- `LDA`, ABSOLUTE: copy the operand into A; Z and N from it (R100). -/
def execLdaAbs (addr16 : Addr) (s : State) : Result := .next (loadA (.mem (.absolute addr16)) s)

/-- `LDA`, ABSOLUTE_X: copy the operand into A; Z and N from it (R100). -/
def execLdaAbx (base16 : Addr) (s : State) : Result := .next (loadA (.mem (.absoluteX base16)) s)

/-- `LDA`, ABSOLUTE_Y: copy the operand into A; Z and N from it (R100). -/
def execLdaAby (base16 : Addr) (s : State) : Result := .next (loadA (.mem (.absoluteY base16)) s)

/-- `LDA`, INDIRECT_X: copy the operand into A; Z and N from it (R100). -/
def execLdaIzx (zp8 : Byte) (s : State) : Result := .next (loadA (.mem (.indirectX zp8)) s)

/-- `LDA`, INDIRECT_Y: copy the operand into A; Z and N from it (R100). -/
def execLdaIzy (zp8 : Byte) (s : State) : Result := .next (loadA (.mem (.indirectY zp8)) s)

/-- `LDX`, IMMEDIATE: copy the operand into X; Z and N from it (R101). -/
def execLdxImm (imm8 : Byte) (s : State) : Result := .next (loadX (.immediate imm8) s)

/-- `LDX`, ZERO_PAGE: copy the operand into X; Z and N from it (R101). -/
def execLdxZp (zp8 : Byte) (s : State) : Result := .next (loadX (.mem (.zeroPage zp8)) s)

/-- `LDX`, ZERO_PAGE_Y: copy the operand into X; Z and N from it (R101). -/
def execLdxZpy (zp8 : Byte) (s : State) : Result := .next (loadX (.mem (.zeroPageY zp8)) s)

/-- `LDX`, ABSOLUTE: copy the operand into X; Z and N from it (R101). -/
def execLdxAbs (addr16 : Addr) (s : State) : Result := .next (loadX (.mem (.absolute addr16)) s)

/-- `LDX`, ABSOLUTE_Y: copy the operand into X; Z and N from it (R101). -/
def execLdxAby (base16 : Addr) (s : State) : Result := .next (loadX (.mem (.absoluteY base16)) s)

/-- `LDY`, IMMEDIATE: copy the operand into Y; Z and N from it (R102). -/
def execLdyImm (imm8 : Byte) (s : State) : Result := .next (loadY (.immediate imm8) s)

/-- `LDY`, ZERO_PAGE: copy the operand into Y; Z and N from it (R102). -/
def execLdyZp (zp8 : Byte) (s : State) : Result := .next (loadY (.mem (.zeroPage zp8)) s)

/-- `LDY`, ZERO_PAGE_X: copy the operand into Y; Z and N from it (R102). -/
def execLdyZpx (zp8 : Byte) (s : State) : Result := .next (loadY (.mem (.zeroPageX zp8)) s)

/-- `LDY`, ABSOLUTE: copy the operand into Y; Z and N from it (R102). -/
def execLdyAbs (addr16 : Addr) (s : State) : Result := .next (loadY (.mem (.absolute addr16)) s)

/-- `LDY`, ABSOLUTE_X: copy the operand into Y; Z and N from it (R102). -/
def execLdyAbx (base16 : Addr) (s : State) : Result := .next (loadY (.mem (.absoluteX base16)) s)

/-- `STA`, ZERO_PAGE: store A; no flag changes (R103). -/
def execStaZp (zp8 : Byte) (s : State) : Result := .next (State.writeByte (effAddr (.zeroPage zp8) s) s.a s)

/-- `STA`, ZERO_PAGE_X: store A; no flag changes (R103). -/
def execStaZpx (zp8 : Byte) (s : State) : Result := .next (State.writeByte (effAddr (.zeroPageX zp8) s) s.a s)

/-- `STA`, ABSOLUTE: store A; no flag changes (R103). -/
def execStaAbs (addr16 : Addr) (s : State) : Result := .next (State.writeByte (effAddr (.absolute addr16) s) s.a s)

/-- `STA`, ABSOLUTE_X: store A; no flag changes (R103). -/
def execStaAbx (base16 : Addr) (s : State) : Result := .next (State.writeByte (effAddr (.absoluteX base16) s) s.a s)

/-- `STA`, ABSOLUTE_Y: store A; no flag changes (R103). -/
def execStaAby (base16 : Addr) (s : State) : Result := .next (State.writeByte (effAddr (.absoluteY base16) s) s.a s)

/-- `STA`, INDIRECT_X: store A; no flag changes (R103). -/
def execStaIzx (zp8 : Byte) (s : State) : Result := .next (State.writeByte (effAddr (.indirectX zp8) s) s.a s)

/-- `STA`, INDIRECT_Y: store A; no flag changes (R103). -/
def execStaIzy (zp8 : Byte) (s : State) : Result := .next (State.writeByte (effAddr (.indirectY zp8) s) s.a s)

/-- `STX`, ZERO_PAGE: store X; no flag changes (R104). -/
def execStxZp (zp8 : Byte) (s : State) : Result := .next (State.writeByte (effAddr (.zeroPage zp8) s) s.x s)

/-- `STX`, ZERO_PAGE_Y: store X; no flag changes (R104). -/
def execStxZpy (zp8 : Byte) (s : State) : Result := .next (State.writeByte (effAddr (.zeroPageY zp8) s) s.x s)

/-- `STX`, ABSOLUTE: store X; no flag changes (R104). -/
def execStxAbs (addr16 : Addr) (s : State) : Result := .next (State.writeByte (effAddr (.absolute addr16) s) s.x s)

/-- `STY`, ZERO_PAGE: store Y; no flag changes (R105). -/
def execStyZp (zp8 : Byte) (s : State) : Result := .next (State.writeByte (effAddr (.zeroPage zp8) s) s.y s)

/-- `STY`, ZERO_PAGE_X: store Y; no flag changes (R105). -/
def execStyZpx (zp8 : Byte) (s : State) : Result := .next (State.writeByte (effAddr (.zeroPageX zp8) s) s.y s)

/-- `STY`, ABSOLUTE: store Y; no flag changes (R105). -/
def execStyAbs (addr16 : Addr) (s : State) : Result := .next (State.writeByte (effAddr (.absolute addr16) s) s.y s)

end Sys2Proof.Machine
end

