-- ==== Sys2Proof/Machine/Arithmetic.lean ====
section
/-! DEFINITION. Arithmetic and logical instructions (42_arithmetic_logic.md, R110 to R115); the
adder and its flags are in Flags.lean. -/

namespace Sys2Proof.Machine

/-- Bitwise and (R112). -/
def andByte (u v : Byte) : Byte := u &&& v

/-- Bitwise or (R113). -/
def orByte (u v : Byte) : Byte := u ||| v

/-- Bitwise exclusive or (R114). -/
def xorByte (u v : Byte) : Byte := u ^^^ v

/-- Combine the operand into A; Z and N from the result, C and V kept (R112 to R114). -/
def combineA (f : Byte → Byte → Byte) (o : Operand) (s : State) : State :=
  moveToA (f s.a (operandData o s)) s

/-- `BIT`: Z from `A & data`, N and V bits 7 and 6 of the memory byte; A is unchanged (R115). -/
def testBits (o : Operand) (s : State) : State :=
  let data := operandData o s
  let s1 := s.setFlag .z (isZero (s.a &&& data))
  (s1.setFlag .n (data.getLsbD 7)).setFlag .v (data.getLsbD 6)

/-- `ADC`, IMMEDIATE: add the operand and the carry to A (R110). -/
def execAdcImm (imm8 : Byte) (s : State) : Result := .next (addToA (operandData (.immediate imm8) s) s)

/-- `ADC`, ZERO_PAGE: add the operand and the carry to A (R110). -/
def execAdcZp (zp8 : Byte) (s : State) : Result := .next (addToA (operandData (.mem (.zeroPage zp8)) s) s)

/-- `ADC`, ZERO_PAGE_X: add the operand and the carry to A (R110). -/
def execAdcZpx (zp8 : Byte) (s : State) : Result := .next (addToA (operandData (.mem (.zeroPageX zp8)) s) s)

/-- `ADC`, ABSOLUTE: add the operand and the carry to A (R110). -/
def execAdcAbs (addr16 : Addr) (s : State) : Result := .next (addToA (operandData (.mem (.absolute addr16)) s) s)

/-- `ADC`, ABSOLUTE_X: add the operand and the carry to A (R110). -/
def execAdcAbx (base16 : Addr) (s : State) : Result := .next (addToA (operandData (.mem (.absoluteX base16)) s) s)

/-- `ADC`, ABSOLUTE_Y: add the operand and the carry to A (R110). -/
def execAdcAby (base16 : Addr) (s : State) : Result := .next (addToA (operandData (.mem (.absoluteY base16)) s) s)

/-- `ADC`, INDIRECT_X: add the operand and the carry to A (R110). -/
def execAdcIzx (zp8 : Byte) (s : State) : Result := .next (addToA (operandData (.mem (.indirectX zp8)) s) s)

/-- `ADC`, INDIRECT_Y: add the operand and the carry to A (R110). -/
def execAdcIzy (zp8 : Byte) (s : State) : Result := .next (addToA (operandData (.mem (.indirectY zp8)) s) s)

/-- `SBC`, IMMEDIATE: subtract the operand and the borrow from A, as an addition of its complement (D5) (R111). -/
def execSbcImm (imm8 : Byte) (s : State) : Result := .next (addToA (complement (operandData (.immediate imm8) s)) s)

/-- `SBC`, ZERO_PAGE: subtract the operand and the borrow from A, as an addition of its complement (D5) (R111). -/
def execSbcZp (zp8 : Byte) (s : State) : Result := .next (addToA (complement (operandData (.mem (.zeroPage zp8)) s)) s)

/-- `SBC`, ZERO_PAGE_X: subtract the operand and the borrow from A, as an addition of its complement (D5) (R111). -/
def execSbcZpx (zp8 : Byte) (s : State) : Result := .next (addToA (complement (operandData (.mem (.zeroPageX zp8)) s)) s)

/-- `SBC`, ABSOLUTE: subtract the operand and the borrow from A, as an addition of its complement (D5) (R111). -/
def execSbcAbs (addr16 : Addr) (s : State) : Result := .next (addToA (complement (operandData (.mem (.absolute addr16)) s)) s)

/-- `SBC`, ABSOLUTE_X: subtract the operand and the borrow from A, as an addition of its complement (D5) (R111). -/
def execSbcAbx (base16 : Addr) (s : State) : Result := .next (addToA (complement (operandData (.mem (.absoluteX base16)) s)) s)

/-- `SBC`, ABSOLUTE_Y: subtract the operand and the borrow from A, as an addition of its complement (D5) (R111). -/
def execSbcAby (base16 : Addr) (s : State) : Result := .next (addToA (complement (operandData (.mem (.absoluteY base16)) s)) s)

/-- `SBC`, INDIRECT_X: subtract the operand and the borrow from A, as an addition of its complement (D5) (R111). -/
def execSbcIzx (zp8 : Byte) (s : State) : Result := .next (addToA (complement (operandData (.mem (.indirectX zp8)) s)) s)

/-- `SBC`, INDIRECT_Y: subtract the operand and the borrow from A, as an addition of its complement (D5) (R111). -/
def execSbcIzy (zp8 : Byte) (s : State) : Result := .next (addToA (complement (operandData (.mem (.indirectY zp8)) s)) s)

/-- `AND`, IMMEDIATE: bitwise and into A (R112). -/
def execAndImm (imm8 : Byte) (s : State) : Result := .next (combineA andByte (.immediate imm8) s)

/-- `AND`, ZERO_PAGE: bitwise and into A (R112). -/
def execAndZp (zp8 : Byte) (s : State) : Result := .next (combineA andByte (.mem (.zeroPage zp8)) s)

/-- `AND`, ZERO_PAGE_X: bitwise and into A (R112). -/
def execAndZpx (zp8 : Byte) (s : State) : Result := .next (combineA andByte (.mem (.zeroPageX zp8)) s)

/-- `AND`, ABSOLUTE: bitwise and into A (R112). -/
def execAndAbs (addr16 : Addr) (s : State) : Result := .next (combineA andByte (.mem (.absolute addr16)) s)

/-- `AND`, ABSOLUTE_X: bitwise and into A (R112). -/
def execAndAbx (base16 : Addr) (s : State) : Result := .next (combineA andByte (.mem (.absoluteX base16)) s)

/-- `AND`, ABSOLUTE_Y: bitwise and into A (R112). -/
def execAndAby (base16 : Addr) (s : State) : Result := .next (combineA andByte (.mem (.absoluteY base16)) s)

/-- `AND`, INDIRECT_X: bitwise and into A (R112). -/
def execAndIzx (zp8 : Byte) (s : State) : Result := .next (combineA andByte (.mem (.indirectX zp8)) s)

/-- `AND`, INDIRECT_Y: bitwise and into A (R112). -/
def execAndIzy (zp8 : Byte) (s : State) : Result := .next (combineA andByte (.mem (.indirectY zp8)) s)

/-- `ORA`, IMMEDIATE: bitwise or into A (R113). -/
def execOraImm (imm8 : Byte) (s : State) : Result := .next (combineA orByte (.immediate imm8) s)

/-- `ORA`, ZERO_PAGE: bitwise or into A (R113). -/
def execOraZp (zp8 : Byte) (s : State) : Result := .next (combineA orByte (.mem (.zeroPage zp8)) s)

/-- `ORA`, ZERO_PAGE_X: bitwise or into A (R113). -/
def execOraZpx (zp8 : Byte) (s : State) : Result := .next (combineA orByte (.mem (.zeroPageX zp8)) s)

/-- `ORA`, ABSOLUTE: bitwise or into A (R113). -/
def execOraAbs (addr16 : Addr) (s : State) : Result := .next (combineA orByte (.mem (.absolute addr16)) s)

/-- `ORA`, ABSOLUTE_X: bitwise or into A (R113). -/
def execOraAbx (base16 : Addr) (s : State) : Result := .next (combineA orByte (.mem (.absoluteX base16)) s)

/-- `ORA`, ABSOLUTE_Y: bitwise or into A (R113). -/
def execOraAby (base16 : Addr) (s : State) : Result := .next (combineA orByte (.mem (.absoluteY base16)) s)

/-- `ORA`, INDIRECT_X: bitwise or into A (R113). -/
def execOraIzx (zp8 : Byte) (s : State) : Result := .next (combineA orByte (.mem (.indirectX zp8)) s)

/-- `ORA`, INDIRECT_Y: bitwise or into A (R113). -/
def execOraIzy (zp8 : Byte) (s : State) : Result := .next (combineA orByte (.mem (.indirectY zp8)) s)

/-- `EOR`, IMMEDIATE: bitwise exclusive or into A (R114). -/
def execEorImm (imm8 : Byte) (s : State) : Result := .next (combineA xorByte (.immediate imm8) s)

/-- `EOR`, ZERO_PAGE: bitwise exclusive or into A (R114). -/
def execEorZp (zp8 : Byte) (s : State) : Result := .next (combineA xorByte (.mem (.zeroPage zp8)) s)

/-- `EOR`, ZERO_PAGE_X: bitwise exclusive or into A (R114). -/
def execEorZpx (zp8 : Byte) (s : State) : Result := .next (combineA xorByte (.mem (.zeroPageX zp8)) s)

/-- `EOR`, ABSOLUTE: bitwise exclusive or into A (R114). -/
def execEorAbs (addr16 : Addr) (s : State) : Result := .next (combineA xorByte (.mem (.absolute addr16)) s)

/-- `EOR`, ABSOLUTE_X: bitwise exclusive or into A (R114). -/
def execEorAbx (base16 : Addr) (s : State) : Result := .next (combineA xorByte (.mem (.absoluteX base16)) s)

/-- `EOR`, ABSOLUTE_Y: bitwise exclusive or into A (R114). -/
def execEorAby (base16 : Addr) (s : State) : Result := .next (combineA xorByte (.mem (.absoluteY base16)) s)

/-- `EOR`, INDIRECT_X: bitwise exclusive or into A (R114). -/
def execEorIzx (zp8 : Byte) (s : State) : Result := .next (combineA xorByte (.mem (.indirectX zp8)) s)

/-- `EOR`, INDIRECT_Y: bitwise exclusive or into A (R114). -/
def execEorIzy (zp8 : Byte) (s : State) : Result := .next (combineA xorByte (.mem (.indirectY zp8)) s)

/-- `BIT`, ZERO_PAGE: test bits of memory against A (D6) (R115). -/
def execBitZp (zp8 : Byte) (s : State) : Result := .next (testBits (.mem (.zeroPage zp8)) s)

/-- `BIT`, ABSOLUTE: test bits of memory against A (D6) (R115). -/
def execBitAbs (addr16 : Addr) (s : State) : Result := .next (testBits (.mem (.absolute addr16)) s)

end Sys2Proof.Machine
end

