-- ==== Sys2Proof/Machine/Branch.lean ====
section
/-! DEFINITION. Branches, jumps, subroutine call and return (45_branch_jump.md, R145 to R156). -/

namespace Sys2Proof.Machine

/-- `Branch(f, e)`: taken exactly when the flag has the expected value; no flag, register or memory but PC
(R145). -/
def branchIf (f : Flag) (expected : Bool) (rel8 : Byte) (s : State) : State :=
  if s.flag f = expected then s.setPC (branchTarget rel8 s) else s

/-- Push PC - 1, the address of the last byte of the instruction, high byte first, then jump (R155). -/
def callSubroutine (target : Addr) (s : State) : State := (push16 (s.pc - 1) s).setPC target

/-- Pull PC low byte first and add 1 (R156). -/
def returnFromSubroutine (s : State) : State := (pop16 s).setPC (popped16 s + 1)

/-- `BCC`, RELATIVE: branch if carry clear (R146). -/
def execBcc (rel8 : Byte) (s : State) : Result := .next (branchIf .c false rel8 s)

/-- `BCS`, RELATIVE: branch if carry set (R147). -/
def execBcs (rel8 : Byte) (s : State) : Result := .next (branchIf .c true rel8 s)

/-- `BEQ`, RELATIVE: branch if zero set (R148). -/
def execBeq (rel8 : Byte) (s : State) : Result := .next (branchIf .z true rel8 s)

/-- `BNE`, RELATIVE: branch if zero clear (R149). -/
def execBne (rel8 : Byte) (s : State) : Result := .next (branchIf .z false rel8 s)

/-- `BMI`, RELATIVE: branch if negative set (R150). -/
def execBmi (rel8 : Byte) (s : State) : Result := .next (branchIf .n true rel8 s)

/-- `BPL`, RELATIVE: branch if negative clear (R151). -/
def execBpl (rel8 : Byte) (s : State) : Result := .next (branchIf .n false rel8 s)

/-- `BVC`, RELATIVE: branch if overflow clear (R152). -/
def execBvc (rel8 : Byte) (s : State) : Result := .next (branchIf .v false rel8 s)

/-- `BVS`, RELATIVE: branch if overflow set (R153). -/
def execBvs (rel8 : Byte) (s : State) : Result := .next (branchIf .v true rel8 s)

/-- `JMP`, ABSOLUTE: jump (R154). -/
def execJmpAbs (addr16 : Addr) (s : State) : Result := .next (s.setPC (effAddr (.absolute addr16) s))

/-- `JMP`, INDIRECT: jump (R154). -/
def execJmpInd (ptr16 : Addr) (s : State) : Result := .next (s.setPC (effAddr (.indirect ptr16) s))

/-- `JSR`, ABSOLUTE: jump to subroutine (R155). -/
def execJsr (addr16 : Addr) (s : State) : Result := .next (callSubroutine (effAddr (.absolute addr16) s) s)

/-- `RTS`, IMPLIED: return from subroutine (R156). -/
def execRts (s : State) : Result := .next (returnFromSubroutine s)

end Sys2Proof.Machine
end

