-- ==== Sys2Proof/Machine/CompareIncDec.lean ====
section
/-! DEFINITION. Compares, increments and decrements (44_compare_incdec.md, R130 to R138); the
compare is in Flags.lean. -/

namespace Sys2Proof.Machine

/-- Add 1 modulo 256 (R133, R135, R136). -/
def increment (v : Byte) : Byte := v + 1

/-- Subtract 1 modulo 256 (R134, R137, R138). -/
def decrement (v : Byte) : Byte := v - 1

/-- Replace the cell at the effective address by `f` of it: one read and one write; Z and N from the result
(R46, R133, R134). -/
def stepMem (f : Byte → Byte) (m : MemOperand) (s : State) : State :=
  let result := f (operandData (.mem m) s)
  setZN result (State.writeByte (effAddr m s) result s)

/-- `CMP`, IMMEDIATE: compare A (R130). -/
def execCmpImm (imm8 : Byte) (s : State) : Result := .next (compareWith s.a (operandData (.immediate imm8) s) s)

/-- `CMP`, ZERO_PAGE: compare A (R130). -/
def execCmpZp (zp8 : Byte) (s : State) : Result := .next (compareWith s.a (operandData (.mem (.zeroPage zp8)) s) s)

/-- `CMP`, ZERO_PAGE_X: compare A (R130). -/
def execCmpZpx (zp8 : Byte) (s : State) : Result := .next (compareWith s.a (operandData (.mem (.zeroPageX zp8)) s) s)

/-- `CMP`, ABSOLUTE: compare A (R130). -/
def execCmpAbs (addr16 : Addr) (s : State) : Result := .next (compareWith s.a (operandData (.mem (.absolute addr16)) s) s)

/-- `CMP`, ABSOLUTE_X: compare A (R130). -/
def execCmpAbx (base16 : Addr) (s : State) : Result := .next (compareWith s.a (operandData (.mem (.absoluteX base16)) s) s)

/-- `CMP`, ABSOLUTE_Y: compare A (R130). -/
def execCmpAby (base16 : Addr) (s : State) : Result := .next (compareWith s.a (operandData (.mem (.absoluteY base16)) s) s)

/-- `CMP`, INDIRECT_X: compare A (R130). -/
def execCmpIzx (zp8 : Byte) (s : State) : Result := .next (compareWith s.a (operandData (.mem (.indirectX zp8)) s) s)

/-- `CMP`, INDIRECT_Y: compare A (R130). -/
def execCmpIzy (zp8 : Byte) (s : State) : Result := .next (compareWith s.a (operandData (.mem (.indirectY zp8)) s) s)

/-- `CPX`, IMMEDIATE: compare X, with its own carry (C2, D8) (R131). -/
def execCpxImm (imm8 : Byte) (s : State) : Result := .next (compareWith s.x (operandData (.immediate imm8) s) s)

/-- `CPX`, ZERO_PAGE: compare X, with its own carry (C2, D8) (R131). -/
def execCpxZp (zp8 : Byte) (s : State) : Result := .next (compareWith s.x (operandData (.mem (.zeroPage zp8)) s) s)

/-- `CPX`, ABSOLUTE: compare X, with its own carry (C2, D8) (R131). -/
def execCpxAbs (addr16 : Addr) (s : State) : Result := .next (compareWith s.x (operandData (.mem (.absolute addr16)) s) s)

/-- `CPY`, IMMEDIATE: compare Y, with its own carry (C2, D8) (R132). -/
def execCpyImm (imm8 : Byte) (s : State) : Result := .next (compareWith s.y (operandData (.immediate imm8) s) s)

/-- `CPY`, ZERO_PAGE: compare Y, with its own carry (C2, D8) (R132). -/
def execCpyZp (zp8 : Byte) (s : State) : Result := .next (compareWith s.y (operandData (.mem (.zeroPage zp8)) s) s)

/-- `CPY`, ABSOLUTE: compare Y, with its own carry (C2, D8) (R132). -/
def execCpyAbs (addr16 : Addr) (s : State) : Result := .next (compareWith s.y (operandData (.mem (.absolute addr16)) s) s)

/-- `INC`, ZERO_PAGE: increment memory (R133). -/
def execIncZp (zp8 : Byte) (s : State) : Result := .next (stepMem increment (.zeroPage zp8) s)

/-- `INC`, ZERO_PAGE_X: increment memory (R133). -/
def execIncZpx (zp8 : Byte) (s : State) : Result := .next (stepMem increment (.zeroPageX zp8) s)

/-- `INC`, ABSOLUTE: increment memory (R133). -/
def execIncAbs (addr16 : Addr) (s : State) : Result := .next (stepMem increment (.absolute addr16) s)

/-- `INC`, ABSOLUTE_X: increment memory (R133). -/
def execIncAbx (base16 : Addr) (s : State) : Result := .next (stepMem increment (.absoluteX base16) s)

/-- `DEC`, ZERO_PAGE: decrement memory (R134). -/
def execDecZp (zp8 : Byte) (s : State) : Result := .next (stepMem decrement (.zeroPage zp8) s)

/-- `DEC`, ZERO_PAGE_X: decrement memory (R134). -/
def execDecZpx (zp8 : Byte) (s : State) : Result := .next (stepMem decrement (.zeroPageX zp8) s)

/-- `DEC`, ABSOLUTE: decrement memory (R134). -/
def execDecAbs (addr16 : Addr) (s : State) : Result := .next (stepMem decrement (.absolute addr16) s)

/-- `DEC`, ABSOLUTE_X: decrement memory (R134). -/
def execDecAbx (base16 : Addr) (s : State) : Result := .next (stepMem decrement (.absoluteX base16) s)

/-- `INX`, IMPLIED: increment X (R135). -/
def execInx (s : State) : Result := .next (moveToX (increment s.x) s)

/-- `INY`, IMPLIED: increment Y (R136). -/
def execIny (s : State) : Result := .next (moveToY (increment s.y) s)

/-- `DEX`, IMPLIED: decrement X (R137). -/
def execDex (s : State) : Result := .next (moveToX (decrement s.x) s)

/-- `DEY`, IMPLIED: decrement Y (R138). -/
def execDey (s : State) : Result := .next (moveToY (decrement s.y) s)

end Sys2Proof.Machine
end

