-- ==== Sys2Proof/Machine/FlagTransfer.lean ====
section
/-! DEFINITION. Flag instructions and register transfers (47_flags_transfers.md, R175 to R190). -/

namespace Sys2Proof.Machine

/-- `CLC`, IMPLIED: clear C (R175). -/
def execClc (s : State) : Result := .next (s.setFlag .c false)

/-- `SEC`, IMPLIED: set C (R176). -/
def execSec (s : State) : Result := .next (s.setFlag .c true)

/-- `CLD`, IMPLIED: clear D (R177). -/
def execCld (s : State) : Result := .next (s.setFlag .d false)

/-- `SED`, IMPLIED: set D (R178). -/
def execSed (s : State) : Result := .next (s.setFlag .d true)

/-- `CLI`, IMPLIED: clear I (R179). -/
def execCli (s : State) : Result := .next (s.setFlag .i false)

/-- `SEI`, IMPLIED: set I (R180). -/
def execSei (s : State) : Result := .next (s.setFlag .i true)

/-- `CLV`, IMPLIED: clear V (R181). -/
def execClv (s : State) : Result := .next (s.setFlag .v false)

/-- `TAX`, IMPLIED: copy A to X (R185). -/
def execTax (s : State) : Result := .next (moveToX s.a s)

/-- `TAY`, IMPLIED: copy A to Y (R186). -/
def execTay (s : State) : Result := .next (moveToY s.a s)

/-- `TXA`, IMPLIED: copy X to A (R187). -/
def execTxa (s : State) : Result := .next (moveToA s.x s)

/-- `TYA`, IMPLIED: copy Y to A (R188). -/
def execTya (s : State) : Result := .next (moveToA s.y s)

/-- `TSX`, IMPLIED: copy SP to X (R189). -/
def execTsx (s : State) : Result := .next (moveToX s.sp s)

/-- `TXS`, IMPLIED: copy X to SP; no flag changes (R190). -/
def execTxs (s : State) : Result := .next (s.setSP s.x)

end Sys2Proof.Machine
end

