-- ==== Sys2Proof/Machine/Shift.lean ====
section
/-! DEFINITION. Shifts and rotates (43_shift_rotate.md, R120 to R124); the one-bit shifts are in
Flags.lean. -/

namespace Sys2Proof.Machine

/-- A shift or rotate of the accumulator; no memory is touched (R124). -/
def shiftA (f : Byte → Bool → Shifted) (s : State) : State :=
  let out := f (operandData .implied s) (s.flag .c)
  (setShiftFlags out s).setA out.result

/-- A shift or rotate of the cell at the effective address: one read and one write, A unchanged (R46, R124). -/
def shiftMem (f : Byte → Bool → Shifted) (m : MemOperand) (s : State) : State :=
  let out := f (operandData (.mem m) s) (s.flag .c)
  State.writeByte (effAddr m s) out.result (setShiftFlags out s)

/-- `ASL`, IMPLIED: arithmetic shift left (R120). -/
def execAslAcc (s : State) : Result := .next (shiftA shiftLeft s)

/-- `ASL`, ZERO_PAGE: arithmetic shift left (R120). -/
def execAslZp (zp8 : Byte) (s : State) : Result := .next (shiftMem shiftLeft (.zeroPage zp8) s)

/-- `ASL`, ZERO_PAGE_X: arithmetic shift left (R120). -/
def execAslZpx (zp8 : Byte) (s : State) : Result := .next (shiftMem shiftLeft (.zeroPageX zp8) s)

/-- `ASL`, ABSOLUTE: arithmetic shift left (R120). -/
def execAslAbs (addr16 : Addr) (s : State) : Result := .next (shiftMem shiftLeft (.absolute addr16) s)

/-- `ASL`, ABSOLUTE_X: arithmetic shift left (R120). -/
def execAslAbx (base16 : Addr) (s : State) : Result := .next (shiftMem shiftLeft (.absoluteX base16) s)

/-- `LSR`, IMPLIED: logical shift right (R121). -/
def execLsrAcc (s : State) : Result := .next (shiftA shiftRight s)

/-- `LSR`, ZERO_PAGE: logical shift right (R121). -/
def execLsrZp (zp8 : Byte) (s : State) : Result := .next (shiftMem shiftRight (.zeroPage zp8) s)

/-- `LSR`, ZERO_PAGE_X: logical shift right (R121). -/
def execLsrZpx (zp8 : Byte) (s : State) : Result := .next (shiftMem shiftRight (.zeroPageX zp8) s)

/-- `LSR`, ABSOLUTE: logical shift right (R121). -/
def execLsrAbs (addr16 : Addr) (s : State) : Result := .next (shiftMem shiftRight (.absolute addr16) s)

/-- `LSR`, ABSOLUTE_X: logical shift right (R121). -/
def execLsrAbx (base16 : Addr) (s : State) : Result := .next (shiftMem shiftRight (.absoluteX base16) s)

/-- `ROL`, IMPLIED: rotate left through carry (D26) (R122). -/
def execRolAcc (s : State) : Result := .next (shiftA rotateLeft s)

/-- `ROL`, ZERO_PAGE: rotate left through carry (D26) (R122). -/
def execRolZp (zp8 : Byte) (s : State) : Result := .next (shiftMem rotateLeft (.zeroPage zp8) s)

/-- `ROL`, ZERO_PAGE_X: rotate left through carry (D26) (R122). -/
def execRolZpx (zp8 : Byte) (s : State) : Result := .next (shiftMem rotateLeft (.zeroPageX zp8) s)

/-- `ROL`, ABSOLUTE: rotate left through carry (D26) (R122). -/
def execRolAbs (addr16 : Addr) (s : State) : Result := .next (shiftMem rotateLeft (.absolute addr16) s)

/-- `ROL`, ABSOLUTE_X: rotate left through carry (D26) (R122). -/
def execRolAbx (base16 : Addr) (s : State) : Result := .next (shiftMem rotateLeft (.absoluteX base16) s)

/-- `ROR`, IMPLIED: rotate right through carry (D26) (R123). -/
def execRorAcc (s : State) : Result := .next (shiftA rotateRight s)

/-- `ROR`, ZERO_PAGE: rotate right through carry (D26) (R123). -/
def execRorZp (zp8 : Byte) (s : State) : Result := .next (shiftMem rotateRight (.zeroPage zp8) s)

/-- `ROR`, ZERO_PAGE_X: rotate right through carry (D26) (R123). -/
def execRorZpx (zp8 : Byte) (s : State) : Result := .next (shiftMem rotateRight (.zeroPageX zp8) s)

/-- `ROR`, ABSOLUTE: rotate right through carry (D26) (R123). -/
def execRorAbs (addr16 : Addr) (s : State) : Result := .next (shiftMem rotateRight (.absolute addr16) s)

/-- `ROR`, ABSOLUTE_X: rotate right through carry (D26) (R123). -/
def execRorAbx (base16 : Addr) (s : State) : Result := .next (shiftMem rotateRight (.absoluteX base16) s)

end Sys2Proof.Machine
end

