-- ==== Sys2Proof/Machine/Stack.lean ====
section
/-! DEFINITION. Stack instructions and return from interrupt (46_stack_rti.md, R165 to R169); the
return itself is `interruptReturn` in Ops.lean. -/

namespace Sys2Proof.Machine

/-- `PHP`: push P with Break and Unused set, then clear both in the live register (R166). -/
def pushStatus (s : State) : State :=
  let s1 := push8 (s.p ||| 0x30#8) s
  (s1.setFlag .b false).setFlag .u false

/-- `PLP`: all of P from the pulled byte, Break included, and Unused set (R168). -/
def pullStatus (s : State) : State := State.setFlag .u true ((pop8 s).setP (popped8 s))

/-- `PHA`, IMPLIED: push A (R165). -/
def execPha (s : State) : Result := .next (push8 s.a s)

/-- `PHP`, IMPLIED: push the status (R166). -/
def execPhp (s : State) : Result := .next (pushStatus s)

/-- `PLA`, IMPLIED: pull A; Z and N from it (D11) (R167). -/
def execPla (s : State) : Result := .next (moveToA (popped8 s) (pop8 s))

/-- `PLP`, IMPLIED: pull the status (D29) (R168). -/
def execPlp (s : State) : Result := .next (pullStatus s)

/-- `RTI`, IMPLIED: return from interrupt (R169). -/
def execRti (s : State) : Result := .next (interruptReturn s)

end Sys2Proof.Machine
end

