-- ==== Sys2Proof/Machine/System.lean ====
section
/-! DEFINITION. `BRK`, the halt sentinel, and `NOP` (48_brk_nop.md, R195, R196). -/

namespace Sys2Proof.Machine

/-- `BRK`, IMPLIED: the halt sentinel: enter Halted and change nothing else (D3, C5); PC is already past the opcode (R195). -/
def execBrk (s : State) : Result := .next (s.setRun .halted)

/-- `NOP`, IMPLIED: no effect; PC is already past the opcode (R196). -/
def execNop (s : State) : Result := .next s

end Sys2Proof.Machine
end

