-- ==== Sys2Proof/Machine/Sequencer.lean ====
section
/-! DEFINITION. What surrounds an instruction's meaning: fetching its bytes (R52, R54, R93), the instruction
step (R80) and the environment's actions at the boundaries between steps (R2, R205 to R209, R230, R55).
The meaning of instructions is a parameter here; Step.lean supplies `exec`. -/

namespace Sys2Proof.Machine

/-- The three bytes from PC on, each address modulo 65,536: as many as the longest instruction has. Reads
have no side effect, so bytes past a shorter instruction are read without a trace (R43, R54, R93). -/
def fetchBytes (s : State) : List Byte :=
  [s.readByte s.pc, s.readByte (s.pc + 1), s.readByte (s.pc + 2)]

/-- The program counter past an instruction, modulo 65,536 (R93, R97). -/
def pastInstr (i : Instr) (s : State) : State := s.setPC (s.pc + BitVec.ofNat 16 i.length)

/-- One instruction step (R80). Outside `Running` nothing changes (R25). An opcode byte with no table entry
enters `Faulted` with PC unadvanced (R201, C1). Otherwise the meaning runs with PC past the instruction
(R97). -/
def instructionStep (execute : Instr → State → Result) (s : State) : Result :=
  match s.run with
  | .running =>
    match decode (fetchBytes s) with
    | .ok (i, _) => execute i (pastInstr i s)
    | .error _ => .next (raiseFault (.illegalOpcode (s.readByte s.pc) s.pc) s)
  | .halted => .next s
  | .faulted _ => .next s

/-- One action of the environment (R2, D2): a step of the core, an interrupt offered at the boundary (R206,
R207), a reset (R230), or a write to memory (R55). -/
def handleEvent (execute : Instr → State → Result) (e : Event) (s : State) : Result :=
  match e with
  | .step => instructionStep execute s
  | .irq => .next (offerIrq s)
  | .nmi => .next (offerNmi s)
  | .reset => .next (resetCore s)
  | .write address value => .next (State.writeByte address value s)

/-- Take the next action of the environment's schedule; with nothing scheduled the environment asks the core
to step (R218, Log 1). -/
def sessionStep (execute : Instr → State → Result) (s : State) : Result :=
  match s.inputs with
  | [] => handleEvent execute .step s
  | e :: rest => handleEvent execute e (s.setInputs rest)

end Sys2Proof.Machine
end

