-- ==== Sys2Proof/Machine/Step.lean ====
section
/-! DEFINITION. The step of the machine, and the placing of an instruction word where the next step fetches
it. Everything a step does is in Sequencer.lean and the meanings. -/

namespace Sys2Proof.Machine

/-- One step: the environment's next action at this instruction boundary (R1, R2), by default a step of the
core (R80). -/
def step (s : State) : Host.Outcome State Fault Refusal := sessionStep exec s

/-- The state with the three bytes of an instruction word stored from PC on (bits of `w` above `nbits` are
0), the core running and nothing scheduled, so that the very next step fetches and runs it (Log 2). -/
def State.withFetchWord (s : State) (nbits w : Nat) : State :=
  match tableBytes nbits w with
  | [b0, b1, b2] =>
    let s1 := State.writeByte s.pc b0 s
    let s2 := State.writeByte (s.pc + 1) b1 s1
    let s3 := State.writeByte (s.pc + 2) b2 s2
    (s3.setRun .running).setInputs []
  | _ => s

end Sys2Proof.Machine
end

