-- ==== Sys2Proof/Machine/Run.lean ====
section
/-! DEFINITION. `run()`, the unbounded loop over steps that stops at `Halted` and at `Faulted` (R218), with the
fuel a model supplies (R245, D32; the open parameter `fuel` of 00_scope.md section 5), and its result. -/

namespace Sys2Proof.Machine

/-- The result of a run: the snapshot and the memory dump at its end (R31, R245). -/
structure RunResult where
  snapshot : Snapshot
  dump : List Byte
  deriving DecidableEq, Repr

/-- How a run with fuel ends (R245, D32). Running out of fuel is no machine state: the core is still running,
and the run has no result. -/
inductive RunEnd where
  /-- The sentinel has executed: the final state (R195, R245). -/
  | halted (final : State)
  /-- The fault outcome (R201, R245): the record and the state that holds it. -/
  | faulted (record : Fault) (final : State)
  /-- The fuel is spent and the core still runs, in this state (D32). -/
  | outOfFuel (last : State)
  deriving DecidableEq, Repr

/-- The end a run has already reached in this state: none while the core runs (R218, R245). -/
def State.runEnd (s : State) : Option RunEnd :=
  match s.run with
  | .running => none
  | .halted => some (.halted s)
  | .faulted record => some (.faulted record s)

/-- `run()` with fuel (R218, R245, D32): step as long as the core runs, at most `fuel` times, and stop at
`Halted` and at `Faulted`, leaving the rest of the environment's schedule unread, a reset in it included.
One unit of fuel is one step, that is one action of the environment (Log 14). -/
def runWithFuel : Nat → State → Host.Outcome RunEnd Fault Refusal
  | 0, s => .next (s.runEnd.getD (.outOfFuel s))
  | fuel + 1, s =>
    match s.runEnd with
    | some e => .next e
    | none =>
      match step s with
      | .next t => runWithFuel fuel t
      | .fault r => .fault r
      | .refused r => .refused r

/-- What a run leaves the environment: the snapshot and the dump of the final state, there is no exit code
(R245); nothing where the fuel ran out. -/
def RunEnd.result : RunEnd → Option RunResult
  | .halted final => some ⟨final.snapshot, final.dump⟩
  | .faulted _ final => some ⟨final.snapshot, final.dump⟩
  | .outOfFuel _ => none

end Sys2Proof.Machine
end

