-- ==== Sys2Proof/Safety.lean ====
section
/-! DEFINITION. The terms claims are stated in: how a run ends (R25, R203, R245), the invariant of the
machine, and what a step or an instruction leaves unchanged (R24). -/

namespace Sys2Proof.Machine

/-! ## How a run ends -/

/-- The normal end of a run: the sentinel has executed (R25, R195). -/
def State.Halted (s : State) : Prop := s.run = .halted

/-- The fatal abort (R203); a correct program never gets here (R25). -/
def State.Faulted (s : State) : Prop := ∃ f, s.run = .faulted f

/-- `t` is reached from `s` by `n` steps of a run: each step was taken while the core ran (R218), so a run
does not go on past `Halted` or `Faulted`. -/
inductive RunsIn : Nat → State → State → Prop where
  | here (s : State) : RunsIn 0 s s
  | step {n : Nat} {s t u : State} :
      s.run = .running → step s = .next t → RunsIn n t u → RunsIn (n + 1) s u

/-- `t` is reached from `s` by some number of steps of the session, whatever the run state: unlike a run, it
goes on past `Halted` and `Faulted`, for instance through a scheduled reset (R233). -/
inductive Reaches : State → State → Prop where
  | refl (s : State) : Reaches s s
  | tail {s t u : State} : Reaches s t → step t = .next u → Reaches s u

/-- A safe session: no state reached is a fault (R25, R245). -/
def SafeFrom (s : State) : Prop := ∀ t, Reaches s t → ¬ t.Faulted

/-! ## The invariant -/

/-- Memory is in its canonical form, and a fault record is always that of an illegal opcode met at the
address PC still holds (R26, R70, R201, R202). -/
def State.Inv (s : State) : Prop :=
  s.mem.wf = true ∧
  ∀ f, s.run = .faulted f → ∃ op, f = .illegalOpcode op s.pc ∧ formOf op = none

/-! ## The environment's next action -/

/-- The environment's next action is a step of the core, and `rest` is its schedule after that. -/
def StepDue (s : State) (rest : List Event) : Prop :=
  s.inputs = .step :: rest ∨ (s.inputs = [] ∧ rest = [])

/-! ## Frames -/

/-- Every byte register but the named ones keeps its value. -/
def RegsKept (changed : List Reg) (s t : State) : Prop := ∀ r, r ∉ changed → t.reg r = s.reg r

/-- Every bit of the status register but the named ones keeps its value (R24). -/
def FlagsKept (changed : List Flag) (s t : State) : Prop := ∀ f, f ∉ changed → t.flag f = s.flag f

/-- Every byte of memory but those at the named addresses reads as before. -/
def MemKept (stored : List Addr) (s t : State) : Prop :=
  ∀ addr, addr ∉ stored → t.readByte addr = s.readByte addr

/-- The run state and the environment's schedule (the model's own field, Log 1) are as before. -/
def SessionKept (s t : State) : Prop := t.run = s.run ∧ t.inputs = s.inputs

/-- From `s` to `t` only the named registers, flags and bytes of memory change; PC is not spoken of. -/
def ChangesOnly (regs : List Reg) (flags : List Flag) (stored : List Addr) (s t : State) : Prop :=
  RegsKept regs s t ∧ FlagsKept flags s t ∧ MemKept stored s t ∧ SessionKept s t

/-- Z and N of `t` are those of the byte `v`: Z set exactly when it is 0x00, N its bit 7 (R96). -/
def ZeroNegativeOf (v : Byte) (t : State) : Prop :=
  (t.flag .z = true ↔ v = 0x00#8) ∧ t.flag .n = v.getLsbD 7

/-- `result` is written where a shift's operand came from, and nowhere else: A for the accumulator form, the
cell at the effective address for a memory form (R124). -/
def WrittenBack (o : Operand) (result : Byte) (s t : State) : Prop :=
  match o with
  | .mem m => t.readByte (effAddr m s) = result ∧ RegsKept [] s t ∧ MemKept [effAddr m s] s t
  | _ => t.a = result ∧ RegsKept [.a] s t ∧ MemKept [] s t

/-- `t` is `s` after an interrupt entry through `vector`: the three-byte frame of R213 at the old SP, SP
lower by 3, I set, Break clear, Unused set, PC the word at the vector, everything else as before. -/
def InterruptEntered (vector : Addr) (s t : State) : Prop :=
  t.readByte (stackAddr s.sp) = highByte s.pc ∧
  t.readByte (stackAddr (s.sp - 1)) = lowByte s.pc ∧
  (∀ f, getFlag f (t.readByte (stackAddr (s.sp - 2))) =
    if f = .b then false else if f = .u then true else s.flag f) ∧
  t.sp = s.sp - 3 ∧
  t.flag .i = true ∧ t.flag .b = false ∧ t.flag .u = true ∧
  t.pc = joinBytes (s.readByte vector) (s.readByte (vector + 1)) ∧
  RegsKept [.sp] s t ∧ FlagsKept [.i, .b, .u] s t ∧
  MemKept [stackAddr s.sp, stackAddr (s.sp - 1), stackAddr (s.sp - 2)] s t ∧ t.run = s.run

/-- The two states differ at most in the live Break and Unused bits (R33). -/
def SameButBreakUnused (s t : State) : Prop :=
  t.a = s.a ∧ t.x = s.x ∧ t.y = s.y ∧ t.sp = s.sp ∧ t.pc = s.pc ∧ t.run = s.run ∧ t.mem = s.mem ∧
  t.inputs = s.inputs ∧ FlagsKept [.b, .u] s t

end Sys2Proof.Machine
end

