-- ==== Sys2Proof/Certificates/Slice0/Obligations.lean ====
section
/-! DEFINITION. The statements for the provers. A statement about an instruction's meaning is about `exec`,
which runs with PC already past the instruction (R97); `StepRunsTheDecodedInstruction` ties it to a step. Each
result statement has as its conclusion that `exec` answers a next state, for every state and every operand of
every form it names, and says what that state is, its frame included. Where a frame says that the environment's
schedule `inputs` is kept or used up, that field is the model's own (Log 1). -/

open Sys2Proof Sys2Proof.Machine

/-! ## Loads and stores (41_load_store.md) -/

/-- R100, R101, R102, and R82 to R92 for where the operand is: a load copies its operand into the named
register, sets Z and N from it and changes nothing else, in every form. Which opcodes and modes the forms have
is `OpcodesAreThoseOfTheInstructionRules`, here and in the statements below. -/
def Obligations.LoadsCopyTheOperandAndSetZeroNegative : Prop :=
  ∀ (i : Instr) (s : State),
    (i.mnemonic = .lda → ∃ t, exec i s = .next t ∧ t.a = operandData i.operand s ∧
      ZeroNegativeOf (operandData i.operand s) t ∧ t.pc = s.pc ∧ ChangesOnly [.a] [.z, .n] [] s t) ∧
    (i.mnemonic = .ldx → ∃ t, exec i s = .next t ∧ t.x = operandData i.operand s ∧
      ZeroNegativeOf (operandData i.operand s) t ∧ t.pc = s.pc ∧ ChangesOnly [.x] [.z, .n] [] s t) ∧
    (i.mnemonic = .ldy → ∃ t, exec i s = .next t ∧ t.y = operandData i.operand s ∧
      ZeroNegativeOf (operandData i.operand s) t ∧ t.pc = s.pc ∧ ChangesOnly [.y] [.z, .n] [] s t)

/-- R103, R104, R105: a store writes the named register at the effective address, one byte, no flag and no
register changes; every operand of a store is an operand in memory. -/
def Obligations.StoresWriteTheRegisterAtTheAddress : Prop :=
  ∀ (i : Instr) (s : State),
    (i.mnemonic = .sta → ∃ m t, i.operand = .mem m ∧ exec i s = .next t ∧
      t.readByte (effAddr m s) = s.a ∧ t.pc = s.pc ∧ ChangesOnly [] [] [effAddr m s] s t) ∧
    (i.mnemonic = .stx → ∃ m t, i.operand = .mem m ∧ exec i s = .next t ∧
      t.readByte (effAddr m s) = s.x ∧ t.pc = s.pc ∧ ChangesOnly [] [] [effAddr m s] s t) ∧
    (i.mnemonic = .sty → ∃ m t, i.operand = .mem m ∧ exec i s = .next t ∧
      t.readByte (effAddr m s) = s.y ∧ t.pc = s.pc ∧ ChangesOnly [] [] [effAddr m s] s t)

/-! ## Arithmetic and logic (42_arithmetic_logic.md) -/

/-- R110 in integers, for every form and every state: A becomes the sum modulo 256, C is carry out of eight
bits, V is set exactly when the signed sum leaves -128 to 127, Z and N from the result. That this holds
whatever `P.D` is rests on the spec's own decision D7. -/
def Obligations.AdcAddsInBinaryWithCarryAndSignedOverflow : Prop :=
  ∀ (i : Instr) (s : State), i.mnemonic = .adc →
    let data := operandData i.operand s
    let sum := s.a.toNat + data.toNat + (s.flag .c).toNat
    let signed := s.a.toInt + data.toInt + ((s.flag .c).toNat : Int)
    ∃ t, exec i s = .next t ∧ t.a.toNat = sum % 256 ∧
      (t.flag .c = true ↔ 255 < sum) ∧
      (t.flag .v = true ↔ signed < -128 ∨ 127 < signed) ∧
      ZeroNegativeOf t.a t ∧ t.pc = s.pc ∧ ChangesOnly [.a] [.c, .z, .v, .n] [] s t

/-- R111 in integers, for every form and every state: A becomes A - data - (1 - C) modulo 256, C is set
exactly when there is no borrow, V exactly when the signed difference leaves -128 to 127. The whole of R111
is the spec's own decision D5 (and D7 for the Decimal flag), so this is a derived statement. -/
def Obligations.SbcSubtractsInBinaryWithBorrowAndSignedOverflow : Prop :=
  ∀ (i : Instr) (s : State), i.mnemonic = .sbc →
    let data := operandData i.operand s
    let borrow : Int := 1 - ((s.flag .c).toNat : Int)
    let difference : Int := (s.a.toNat : Int) - (data.toNat : Int) - borrow
    let signed := s.a.toInt - data.toInt - borrow
    ∃ t, exec i s = .next t ∧ (t.a.toNat : Int) = difference % 256 ∧
      (t.flag .c = true ↔ 0 ≤ difference) ∧
      (t.flag .v = true ↔ signed < -128 ∨ 127 < signed) ∧
      ZeroNegativeOf t.a t ∧ t.pc = s.pc ∧ ChangesOnly [.a] [.c, .z, .v, .n] [] s t

/-- R112, R113, R114, bit by bit: AND, ORA and EOR combine A and the operand into A, set Z and N from the
result and leave C, V and everything else. -/
def Obligations.LogicCombinesBitsIntoA : Prop :=
  ∀ (i : Instr) (s : State),
    (i.mnemonic = .and → ∃ t, exec i s = .next t ∧
      (∀ k, t.a.getLsbD k = (s.a.getLsbD k && (operandData i.operand s).getLsbD k)) ∧
      ZeroNegativeOf t.a t ∧ t.pc = s.pc ∧ ChangesOnly [.a] [.z, .n] [] s t) ∧
    (i.mnemonic = .ora → ∃ t, exec i s = .next t ∧
      (∀ k, t.a.getLsbD k = (s.a.getLsbD k || (operandData i.operand s).getLsbD k)) ∧
      ZeroNegativeOf t.a t ∧ t.pc = s.pc ∧ ChangesOnly [.a] [.z, .n] [] s t) ∧
    (i.mnemonic = .eor → ∃ t, exec i s = .next t ∧
      (∀ k, t.a.getLsbD k = (s.a.getLsbD k ^^ (operandData i.operand s).getLsbD k)) ∧
      ZeroNegativeOf t.a t ∧ t.pc = s.pc ∧ ChangesOnly [.a] [.z, .n] [] s t)

/-- R115: BIT sets Z from A and the memory byte together, N and V from bits 7 and 6 of the memory byte, and
changes no register and no memory. R115 is the spec's own decision D6, so this is a derived statement. -/
def Obligations.BitTestsMemoryAgainstA : Prop :=
  ∀ (i : Instr) (s : State), i.mnemonic = .bit →
    let data := operandData i.operand s
    ∃ t, exec i s = .next t ∧
      (t.flag .z = true ↔ ∀ k, (s.a.getLsbD k && data.getLsbD k) = false) ∧
      t.flag .n = data.getLsbD 7 ∧ t.flag .v = data.getLsbD 6 ∧
      t.pc = s.pc ∧ ChangesOnly [] [.z, .n, .v] [] s t

/-! ## Shifts and rotates (43_shift_rotate.md) -/

/-- R120, R121, R124: ASL doubles and LSR halves the operand, C is the bit shifted out, Z and N from the
result, the carry in ignored; the result goes back to A in the accumulator form and to the cell at the
effective address in a memory form. -/
def Obligations.ShiftsMoveOneBitAndWriteBack : Prop :=
  ∀ (i : Instr) (s : State),
    let v := operandData i.operand s
    (i.mnemonic = .asl →
      let r := BitVec.ofNat 8 (2 * v.toNat)
      ∃ t, exec i s = .next t ∧ WrittenBack i.operand r s t ∧ (t.flag .c = true ↔ 128 ≤ v.toNat) ∧
        ZeroNegativeOf r t ∧ FlagsKept [.c, .z, .n] s t ∧ t.pc = s.pc ∧ SessionKept s t) ∧
    (i.mnemonic = .lsr →
      let r := BitVec.ofNat 8 (v.toNat / 2)
      ∃ t, exec i s = .next t ∧ WrittenBack i.operand r s t ∧ (t.flag .c = true ↔ v.toNat % 2 = 1) ∧
        ZeroNegativeOf r t ∧ t.flag .n = false ∧ FlagsKept [.c, .z, .n] s t ∧ t.pc = s.pc ∧
        SessionKept s t)

/-- R122, R123: ROL and ROR rotate the nine bits of carry and operand; the old carry enters at bit 0 and bit
7 respectively. The reading of the source's sentence is the spec's own decision D26, so this is derived. -/
def Obligations.RotatesThreadTheCarry : Prop :=
  ∀ (i : Instr) (s : State),
    let v := operandData i.operand s
    let cin := (s.flag .c).toNat
    (i.mnemonic = .rol →
      let r := BitVec.ofNat 8 (2 * v.toNat + cin)
      ∃ t, exec i s = .next t ∧ WrittenBack i.operand r s t ∧ (t.flag .c = true ↔ 128 ≤ v.toNat) ∧
        ZeroNegativeOf r t ∧ FlagsKept [.c, .z, .n] s t ∧ t.pc = s.pc ∧ SessionKept s t) ∧
    (i.mnemonic = .ror →
      let r := BitVec.ofNat 8 (v.toNat / 2 + 128 * cin)
      ∃ t, exec i s = .next t ∧ WrittenBack i.operand r s t ∧ (t.flag .c = true ↔ v.toNat % 2 = 1) ∧
        ZeroNegativeOf r t ∧ t.flag .n = s.flag .c ∧ FlagsKept [.c, .z, .n] s t ∧ t.pc = s.pc ∧
        SessionKept s t)

/-! ## Compares, increments and decrements (44_compare_incdec.md) -/

/-- R130: CMP compares A with the operand: C from the unsigned order, Z exactly on equality, N bit 7 of the
difference modulo 256; V, every register and memory are unchanged. -/
def Obligations.CmpComparesAccumulator : Prop :=
  ∀ (i : Instr) (s : State), i.mnemonic = .cmp →
    let data := operandData i.operand s
    ∃ t, exec i s = .next t ∧ (t.flag .c = true ↔ data.toNat ≤ s.a.toNat) ∧
      (t.flag .z = true ↔ s.a = data) ∧ t.flag .n = (s.a - data).getLsbD 7 ∧
      t.pc = s.pc ∧ ChangesOnly [] [.c, .z, .n] [] s t

/-- R131, R132: CPX and CPY compare X and Y, the carry too from their own register. That is the document's
stated default, taken by the spec as decision D8 (conflict C2), so this is derived. -/
def Obligations.CpxCpyCompareTheirOwnRegister : Prop :=
  ∀ (i : Instr) (s : State),
    let data := operandData i.operand s
    (i.mnemonic = .cpx → ∃ t, exec i s = .next t ∧ (t.flag .c = true ↔ data.toNat ≤ s.x.toNat) ∧
      (t.flag .z = true ↔ s.x = data) ∧ t.flag .n = (s.x - data).getLsbD 7 ∧
      t.pc = s.pc ∧ ChangesOnly [] [.c, .z, .n] [] s t) ∧
    (i.mnemonic = .cpy → ∃ t, exec i s = .next t ∧ (t.flag .c = true ↔ data.toNat ≤ s.y.toNat) ∧
      (t.flag .z = true ↔ s.y = data) ∧ t.flag .n = (s.y - data).getLsbD 7 ∧
      t.pc = s.pc ∧ ChangesOnly [] [.c, .z, .n] [] s t)

/-- R133, R134: INC and DEC add and subtract 1 modulo 256 at the effective address, set Z and N from the
result and leave C, V and every register. -/
def Obligations.IncDecStepTheMemoryCell : Prop :=
  ∀ (i : Instr) (s : State),
    (i.mnemonic = .inc → ∃ m t, i.operand = .mem m ∧ exec i s = .next t ∧
      (t.readByte (effAddr m s)).toNat = ((s.readByte (effAddr m s)).toNat + 1) % 256 ∧
      ZeroNegativeOf (t.readByte (effAddr m s)) t ∧ t.pc = s.pc ∧
      ChangesOnly [] [.z, .n] [effAddr m s] s t) ∧
    (i.mnemonic = .dec → ∃ m t, i.operand = .mem m ∧ exec i s = .next t ∧
      (t.readByte (effAddr m s)).toNat = ((s.readByte (effAddr m s)).toNat + 255) % 256 ∧
      ZeroNegativeOf (t.readByte (effAddr m s)) t ∧ t.pc = s.pc ∧
      ChangesOnly [] [.z, .n] [effAddr m s] s t)

/-- R135 to R138: INX, INY, DEX, DEY step the register modulo 256 and set Z and N. The names and that only X
and Y have them are the spec's own decision D12, so this is derived. -/
def Obligations.IndexRegistersStepModulo256 : Prop :=
  ∀ s : State,
    (∃ t, exec .inx s = .next t ∧ t.x.toNat = (s.x.toNat + 1) % 256 ∧ ZeroNegativeOf t.x t ∧
      t.pc = s.pc ∧ ChangesOnly [.x] [.z, .n] [] s t) ∧
    (∃ t, exec .iny s = .next t ∧ t.y.toNat = (s.y.toNat + 1) % 256 ∧ ZeroNegativeOf t.y t ∧
      t.pc = s.pc ∧ ChangesOnly [.y] [.z, .n] [] s t) ∧
    (∃ t, exec .dex s = .next t ∧ t.x.toNat = (s.x.toNat + 255) % 256 ∧ ZeroNegativeOf t.x t ∧
      t.pc = s.pc ∧ ChangesOnly [.x] [.z, .n] [] s t) ∧
    (∃ t, exec .dey s = .next t ∧ t.y.toNat = (s.y.toNat + 255) % 256 ∧ ZeroNegativeOf t.y t ∧
      t.pc = s.pc ∧ ChangesOnly [.y] [.z, .n] [] s t)

/-! ## Branches, jumps, call and return (45_branch_jump.md) -/

/-- A branch instruction does what R145 says, with the flag it tests and the value it expects: taken, PC is
PC past the instruction plus the displacement read as a signed byte, modulo 65,536; not taken, PC stays past
the instruction; nothing else changes. -/
def BranchesExactlyWhen (branch : Byte → Instr) (f : Flag) (expected : Bool) : Prop :=
  ∀ (rel8 : Byte) (s : State), ∃ t, exec (branch rel8) s = .next t ∧
    (s.flag f = expected → (t.pc.toNat : Int) = ((s.pc.toNat : Int) + rel8.toInt) % 65536) ∧
    (s.flag f ≠ expected → t.pc = s.pc) ∧ ChangesOnly [] [] [] s t

/-- R145 with R146 to R153: the eight branches. Which flag and value each tests is spelled by the mnemonic
and supplied from general knowledge (G5), and the target's wrap is decision D30, so this is derived. -/
def Obligations.BranchesTestTheirFlag : Prop :=
  BranchesExactlyWhen .bcc .c false ∧ BranchesExactlyWhen .bcs .c true ∧
  BranchesExactlyWhen .beq .z true ∧ BranchesExactlyWhen .bne .z false ∧
  BranchesExactlyWhen .bmi .n true ∧ BranchesExactlyWhen .bpl .n false ∧
  BranchesExactlyWhen .bvc .v false ∧ BranchesExactlyWhen .bvs .v true

/-- R154: JMP sets PC to the operand address, or to the little-endian word the operand address points at,
whose high byte is at the next address modulo 65,536 (the spec's own decision D9, so this is derived). -/
def Obligations.JumpsSetThePC : Prop :=
  ∀ (w : Addr) (s : State),
    (∃ t, exec (.jmpAbs w) s = .next t ∧ t.pc = w ∧ ChangesOnly [] [] [] s t) ∧
    (∃ t, exec (.jmpInd w) s = .next t ∧
      t.pc.toNat = (s.readByte w).toNat +
        256 * (s.readByte (BitVec.ofNat 16 ((w.toNat + 1) % 65536))).toNat ∧
      ChangesOnly [] [] [] s t)

/-- R155: JSR pushes PC - 1 (PC past the instruction), high byte first at the old SP, low byte one below,
lowers SP by 2 modulo 256, and jumps; no flag and no other byte changes. That SP wraps is the spec's own
decision D13, so this is derived. -/
def Obligations.JsrPushesReturnAddressMinusOne : Prop :=
  ∀ (target : Addr) (s : State), ∃ t, exec (.jsr target) s = .next t ∧
    (t.readByte (stackAddr s.sp)).toNat = (s.pc - 1).toNat / 256 ∧
    (t.readByte (stackAddr (s.sp - 1))).toNat = (s.pc - 1).toNat % 256 ∧
    t.sp = s.sp - 2 ∧ t.pc = target ∧
    ChangesOnly [.sp] [] [stackAddr s.sp, stackAddr (s.sp - 1)] s t

/-- R156: RTS pulls the low byte, then the high byte, and goes to that address plus 1 modulo 65,536; SP is
higher by 2 modulo 256; no flag and no byte of memory changes. That SP wraps is decision D13: derived. -/
def Obligations.RtsReturnsToThePulledAddressPlusOne : Prop :=
  ∀ s : State, ∃ t, exec .rts s = .next t ∧
    t.pc.toNat = ((s.readByte (stackAddr (s.sp + 1))).toNat +
      256 * (s.readByte (stackAddr (s.sp + 2))).toNat + 1) % 65536 ∧
    t.sp = s.sp + 2 ∧ ChangesOnly [.sp] [] [] s t

/-- The document's stack round trip (R156's example), for every target and every state, stack wrap included:
JSR then RTS comes back to the instruction after the JSR with every register and flag as before (the wrap is
decision D13: derived). -/
def Obligations.JsrThenRtsComesBack : Prop :=
  ∀ (target : Addr) (s : State), ∃ t u, exec (.jsr target) s = .next t ∧ exec .rts t = .next u ∧
    t.pc = target ∧ u.pc = s.pc ∧
    ChangesOnly [] [] [stackAddr s.sp, stackAddr (s.sp - 1)] s u

/-! ## Stack instructions and return from interrupt (46_stack_rti.md) -/

/-- R165: PHA writes A at 0x0100 + SP and lowers SP by 1 modulo 256 (the wrap is decision D13: derived). -/
def Obligations.PhaPushesA : Prop :=
  ∀ s : State, ∃ t, exec .pha s = .next t ∧ t.readByte (stackAddr s.sp) = s.a ∧ t.sp = s.sp - 1 ∧
    t.pc = s.pc ∧ ChangesOnly [.sp] [] [stackAddr s.sp] s t

/-- R166: PHP pushes the status with Break and Unused set in the stacked copy, and then clears both in the
live register (the wrap of SP is decision D13: derived). -/
def Obligations.PhpPushesStatusAndClearsLiveBreakUnused : Prop :=
  ∀ s : State, ∃ t, exec .php s = .next t ∧
    (∀ f, getFlag f (t.readByte (stackAddr s.sp)) = if f = .b ∨ f = .u then true else s.flag f) ∧
    t.sp = s.sp - 1 ∧ t.flag .b = false ∧ t.flag .u = false ∧
    t.pc = s.pc ∧ ChangesOnly [.sp] [.b, .u] [stackAddr s.sp] s t

/-- R167: PLA pulls A and sets Z and N from it (the flags are the spec's own decision D11, so this is
derived). -/
def Obligations.PlaPullsAAndSetsZeroNegative : Prop :=
  ∀ s : State, ∃ t, exec .pla s = .next t ∧ t.a = s.readByte (stackAddr (s.sp + 1)) ∧
    t.sp = s.sp + 1 ∧ ZeroNegativeOf t.a t ∧ t.pc = s.pc ∧ ChangesOnly [.a, .sp] [.z, .n] [] s t

/-- R168: PLP pulls all eight bits of the status, Break included, and sets Unused (Break is the spec's own
decision D29, so this is derived). -/
def Obligations.PlpPullsStatusWithUnusedSet : Prop :=
  ∀ s : State, ∃ t, exec .plp s = .next t ∧
    (∀ f, t.flag f = if f = .u then true else getFlag f (s.readByte (stackAddr (s.sp + 1)))) ∧
    t.sp = s.sp + 1 ∧ t.pc = s.pc ∧ RegsKept [.sp] s t ∧ MemKept [] s t ∧ SessionKept s t

/-- R169: RTI pulls the status with Break and Unused cleared, then PC low and high with no adjustment; SP is
higher by 3 modulo 256 (the wrap of SP is decision D13: derived). -/
def Obligations.RtiRestoresStatusAndPC : Prop :=
  ∀ s : State, ∃ t, exec .rti s = .next t ∧
    (∀ f, t.flag f =
      if f = .b ∨ f = .u then false else getFlag f (s.readByte (stackAddr (s.sp + 1)))) ∧
    t.pc.toNat = (s.readByte (stackAddr (s.sp + 2))).toNat +
      256 * (s.readByte (stackAddr (s.sp + 3))).toNat ∧
    t.sp = s.sp + 3 ∧ RegsKept [.sp] s t ∧ MemKept [] s t ∧ SessionKept s t

/-- PHA then PLA keeps A, SP and PC and sets Z and N from A; PHP then PLP keeps C, Z, I, D, V, N and leaves
B = 1 and U = 1 (the corner case of R168, which rests on D29). -/
def Obligations.PushThenPullRestores : Prop :=
  ∀ s : State,
    (∃ t u, exec .pha s = .next t ∧ exec .pla t = .next u ∧ u.a = s.a ∧ ZeroNegativeOf s.a u ∧
      u.pc = s.pc ∧ ChangesOnly [] [.z, .n] [stackAddr s.sp] s u) ∧
    (∃ t u, exec .php s = .next t ∧ exec .plp t = .next u ∧ u.flag .b = true ∧ u.flag .u = true ∧
      u.pc = s.pc ∧ ChangesOnly [] [.b, .u] [stackAddr s.sp] s u)

/-- R13, R94, R95, R243: a push writes one byte of page one, at 0x0100 + SP, and a pop reads one, both with
SP modulo 256 and no fault (the wrap is the spec's own decision D13, so this is derived). -/
def Obligations.StackStaysInPageOneAndWraps : Prop :=
  ∀ (v : Byte) (s : State),
    (stackAddr s.sp).toNat = 256 + s.sp.toNat ∧ (push8 v s).sp.toNat = (s.sp.toNat + 255) % 256 ∧
    (∀ addr, (push8 v s).readByte addr = if addr.toNat = 256 + s.sp.toNat then v else s.readByte addr) ∧
    (pop8 s).sp.toNat = (s.sp.toNat + 1) % 256 ∧
    (∀ addr, addr.toNat = 256 + (s.sp.toNat + 1) % 256 → popped8 s = s.readByte addr)

/-! ## Flag instructions and transfers (47_flags_transfers.md), BRK and NOP (48_brk_nop.md) -/

/-- The instruction writes one flag to a literal value and changes nothing else. -/
def WritesOneFlag (i : Instr) (f : Flag) (value : Bool) : Prop :=
  ∀ s : State, ∃ t, exec i s = .next t ∧ t.flag f = value ∧ t.pc = s.pc ∧ ChangesOnly [] [f] [] s t

/-- R175 to R181: each flag instruction sets the single named flag to the literal value. Which flag and value
each mnemonic names is supplied from general knowledge (G5), so this is derived. -/
def Obligations.FlagInstructionsWriteOneFlag : Prop :=
  WritesOneFlag .clc .c false ∧ WritesOneFlag .sec .c true ∧ WritesOneFlag .cld .d false ∧
  WritesOneFlag .sed .d true ∧ WritesOneFlag .cli .i false ∧ WritesOneFlag .sei .i true ∧
  WritesOneFlag .clv .v false

/-- The instruction copies one register to another and sets Z and N from the value. -/
def CopiesRegister (i : Instr) (source destination : Reg) : Prop :=
  ∀ s : State, ∃ t, exec i s = .next t ∧ t.reg destination = s.reg source ∧
    ZeroNegativeOf (s.reg source) t ∧ t.pc = s.pc ∧ ChangesOnly [destination] [.z, .n] [] s t

/-- R185 to R190: the transfers; all but TXS set Z and N, TXS sets no flag. Which registers each mnemonic
names is supplied from general knowledge (G5), so this is derived. -/
def Obligations.TransfersCopyRegisters : Prop :=
  CopiesRegister .tax .a .x ∧ CopiesRegister .tay .a .y ∧ CopiesRegister .txa .x .a ∧
  CopiesRegister .tya .y .a ∧ CopiesRegister .tsx .sp .x ∧
  ∀ s : State, ∃ t, exec .txs s = .next t ∧ t.sp = s.x ∧ t.pc = s.pc ∧ ChangesOnly [.sp] [] [] s t

/-- R195: BRK enters Halted and changes nothing else: nothing is pushed, no flag is set. That opcode 0x00 is
the sentinel is the spec's own decision D3, so this is derived. -/
def Obligations.BrkHalts : Prop :=
  ∀ s : State, exec .brk s = .next { s with run := .halted }

/-- R196: NOP changes nothing; PC is already past it. -/
def Obligations.NopChangesNothing : Prop :=
  ∀ s : State, exec .nop s = .next s

/-! ## Memory (20_memory.md) -/

/-- R41, R43: the memory port. A read of the address last written gives the byte written, whatever the
address and the byte, every other address reads as before, and no register, nor the run state, nor the
environment's schedule (the model's own field, Log 1: DESIGN CHOICE) changes; a second write of what is there
changes nothing at all, and neither does a read, which is a function of the state. That the state is then
literally the same rests on the canonical form of the memory list (Log 4: DEDUCED), so this is derived. -/
def Obligations.MemoryReadsBackWhatWasWritten : Prop :=
  ∀ (s : State) (a : Addr) (v : Byte),
    (∀ b, (State.writeByte a v s).readByte b = if b = a then v else s.readByte b) ∧
    (State.writeByte a v s).snapshot = s.snapshot ∧ (State.writeByte a v s).inputs = s.inputs ∧
    (s.mem.wf = true → State.writeByte a (s.readByte a) s = s)

/-! ## The addressing modes (40_step_and_addressing.md) -/

/-- R83, R84 and, with Y for X, R85: the zero-page modes address the zero page, and indexing wraps inside it. -/
def Obligations.ZeroPageModesWrapInsideTheZeroPage : Prop :=
  ∀ (zp8 : Byte) (s : State),
    (effAddr (.zeroPage zp8) s).toNat = zp8.toNat ∧
    (effAddr (.zeroPageX zp8) s).toNat = (zp8.toNat + s.x.toNat) % 256 ∧
    (effAddr (.zeroPageY zp8) s).toNat = (zp8.toNat + s.y.toNat) % 256 ∧
    operandData (.mem (.zeroPage zp8)) s = s.readByte (effAddr (.zeroPage zp8) s) ∧
    operandData (.mem (.zeroPageX zp8)) s = s.readByte (effAddr (.zeroPageX zp8) s) ∧
    operandData (.mem (.zeroPageY zp8)) s = s.readByte (effAddr (.zeroPageY zp8) s)

/-- R86, R87, R88: an absolute operand is the 16-bit value itself; the indexed forms add the register with
the carry into the high byte, modulo 65,536 (the wrap is decision D31, so this is derived). -/
def Obligations.AbsoluteModesAddSixteenBits : Prop :=
  ∀ (w : Addr) (s : State),
    effAddr (.absolute w) s = w ∧
    (effAddr (.absoluteX w) s).toNat = (w.toNat + s.x.toNat) % 65536 ∧
    (effAddr (.absoluteY w) s).toNat = (w.toNat + s.y.toNat) % 65536 ∧
    operandData (.mem (.absolute w)) s = s.readByte (effAddr (.absolute w) s) ∧
    operandData (.mem (.absoluteX w)) s = s.readByte (effAddr (.absoluteX w) s) ∧
    operandData (.mem (.absoluteY w)) s = s.readByte (effAddr (.absoluteY w) s)

/-- R90, R91, R92: a pointer is little-endian; an absolute pointer's high byte is at the next address modulo
65,536 (D9), a zero-page pointer's at the next zero-page location (D10), and both indexed forms add the index
to the operand byte before the pointer is read (R92, C4). Rests on D9 and D10, so derived. -/
def Obligations.IndirectModesReadPointers : Prop :=
  ∀ (w : Addr) (zp8 : Byte) (s : State),
    (effAddr (.indirect w) s).toNat = (s.readByte w).toNat +
      256 * (s.readByte (BitVec.ofNat 16 ((w.toNat + 1) % 65536))).toNat ∧
    (effAddr (.indirectX zp8) s).toNat =
      (s.readByte (BitVec.ofNat 16 ((zp8.toNat + s.x.toNat) % 256))).toNat +
      256 * (s.readByte (BitVec.ofNat 16 ((zp8.toNat + s.x.toNat + 1) % 256))).toNat ∧
    (effAddr (.indirectY zp8) s).toNat =
      (s.readByte (BitVec.ofNat 16 ((zp8.toNat + s.y.toNat) % 256))).toNat +
      256 * (s.readByte (BitVec.ofNat 16 ((zp8.toNat + s.y.toNat + 1) % 256))).toNat ∧
    operandData (.mem (.indirect w)) s = s.readByte (effAddr (.indirect w) s) ∧
    operandData (.mem (.indirectX zp8)) s = s.readByte (effAddr (.indirectX zp8) s) ∧
    operandData (.mem (.indirectY zp8)) s = s.readByte (effAddr (.indirectY zp8) s)

/-- R81, R82, R89: IMPLIED gives A and no address, RELATIVE the displacement and no address, IMMEDIATE the
operand byte, whose own address is where the fetch of the instruction read it: the byte after the opcode. -/
def Obligations.ImpliedImmediateRelativeOperands : Prop :=
  ∀ (b : Byte) (s : State),
    operandData .implied s = s.a ∧ operandAddress .implied s = none ∧
    operandData (.relative b) s = b ∧ operandAddress (.relative b) s = none ∧
    ∀ (i : Instr) (rest : List Byte), decode (fetchBytes s) = .ok (i, rest) → i.operand = .immediate b →
      operandData i.operand (pastInstr i s) = b ∧
      operandAddress i.operand (pastInstr i s) = some (s.pc + 1) ∧ s.readByte (s.pc + 1) = b

/-! ## The step (40_step_and_addressing.md, 60_exceptions.md) -/

/-- R80, R97: while running, when the environment asks for a step and the three bytes from PC on (modulo
65,536) decode to an instruction, the step is that instruction's meaning with PC advanced by the
instruction's length modulo 65,536, and the environment's action is used up. -/
def Obligations.StepRunsTheDecodedInstruction : Prop :=
  ∀ (s : State) (later : List Event) (i : Instr) (rest : List Byte),
    s.run = .running → StepDue s later →
    decode [s.readByte s.pc, s.readByte (s.pc + 1), s.readByte (s.pc + 2)] = .ok (i, rest) →
    step s = exec i { s with pc := s.pc + BitVec.ofNat 16 (encode i).length, inputs := later }

/-- The condition a branch tests, as R146 to R153 give it; none for any other operation. -/
def branchCondition : Mnemonic → Option (Flag × Bool)
  | .bcc => some (.c, false)
  | .bcs => some (.c, true)
  | .beq => some (.z, true)
  | .bne => some (.z, false)
  | .bmi => some (.n, true)
  | .bpl => some (.n, false)
  | .bvc => some (.v, false)
  | .bvs => some (.v, true)
  | _ => none

/-- R97, the program-counter law: when the handler starts PC is the opcode's address plus 1 plus the operand
bytes of the mode, modulo 65,536, and so it is after the step unless the instruction is a taken branch, JMP,
JSR, RTS or RTI. That PC wraps past 0xFFFF is the spec's own decision D28, so this is derived. -/
def Obligations.StepAdvancesPCByTheInstructionLength : Prop :=
  ∀ (s : State) (later : List Event) (i : Instr) (rest : List Byte),
    s.run = .running → StepDue s later → decode (fetchBytes s) = .ok (i, rest) →
    let past := (s.pc.toNat + 1 + i.operand.mode.operandBytes) % 65536
    ∃ u t, step s = exec i u ∧ step s = .next t ∧ u.pc.toNat = past ∧
      (i.mnemonic ∉ [.jmp, .jsr, .rts, .rti] →
        (∀ f e, branchCondition i.mnemonic = some (f, e) → s.flag f ≠ e) → t.pc.toNat = past)

/-- The 105 opcode bytes with no table entry, as R65 lists them. -/
def illegalOpcodeBytes : List Byte :=
  [0x02, 0x03, 0x04, 0x07, 0x0B, 0x0C, 0x0F, 0x12, 0x13, 0x14, 0x17, 0x1A, 0x1B, 0x1C, 0x1F, 0x22] ++
  [0x23, 0x27, 0x2B, 0x2F, 0x32, 0x33, 0x34, 0x37, 0x3A, 0x3B, 0x3C, 0x3F, 0x42, 0x43, 0x44, 0x47] ++
  [0x4B, 0x4F, 0x52, 0x53, 0x54, 0x57, 0x5A, 0x5B, 0x5C, 0x5F, 0x62, 0x63, 0x64, 0x67, 0x6B, 0x6F] ++
  [0x72, 0x73, 0x74, 0x77, 0x7A, 0x7B, 0x7C, 0x7F, 0x80, 0x82, 0x83, 0x87, 0x89, 0x8B, 0x8F, 0x92] ++
  [0x93, 0x97, 0x9B, 0x9C, 0x9E, 0x9F, 0xA3, 0xA7, 0xAB, 0xAF, 0xB2, 0xB3, 0xB7, 0xBB, 0xBF, 0xC2] ++
  [0xC3, 0xC7, 0xCB, 0xCF, 0xD2, 0xD3, 0xD4, 0xD7, 0xDA, 0xDB, 0xDC, 0xDF, 0xE2, 0xE3, 0xE7, 0xEB] ++
  [0xEF, 0xF2, 0xF3, 0xF4, 0xF7, 0xFA, 0xFB, 0xFC, 0xFF]

/-- R65, R201: exactly the 105 listed bytes are illegal; while running, a step that meets one at PC enters
`Faulted` with the byte and its address and changes no register (PC included) and no memory. That PC is not
advanced and that the address is recorded is the spec's own decision D20 (C1), so this is derived. -/
def Obligations.IllegalOpcodeFaultsAndChangesNothingElse : Prop :=
  ∀ (s : State) (later : List Event), s.run = .running → StepDue s later →
    (s.readByte s.pc ∈ illegalOpcodeBytes →
      step s = .next { s with
        inputs := later
        run := .faulted (.illegalOpcode (s.readByte s.pc) s.pc) }) ∧
    (s.readByte s.pc ∉ illegalOpcodeBytes →
      ∃ i rest, decode (fetchBytes s) = .ok (i, rest) ∧ i.opcode = s.readByte s.pc)

/-- R25, R203, R212, R233: in `Halted` and `Faulted` a step and an interrupt request change nothing, and a
reset runs the core again (D18, D19, so derived). -/
def Obligations.OnlyResetLeavesHaltedOrFaulted : Prop :=
  ∀ (s : State) (later : List Event), s.run ≠ .running →
    (StepDue s later ∨ s.inputs = .irq :: later ∨ s.inputs = .nmi :: later →
      step s = .next { s with inputs := later }) ∧
    (s.inputs = .reset :: later → ∃ t, step s = .next t ∧ t.run = .running)

/-- R25, R203, R212, R219: as long as the environment's schedule holds no reset, nothing leaves `Halted` or
`Faulted` and every register and the run state (the fault record with it) survive, whatever steps, interrupts
and memory writes come; a halted session is safe (D18, so derived). -/
def Obligations.HaltedAndFaultedLastUntilReset : Prop :=
  ∀ s : State, s.run ≠ .running → .reset ∉ s.inputs →
    (∀ t, Reaches s t → t.snapshot = s.snapshot) ∧ (s.Halted → SafeFrom s)

/-- R25, R195: the only step that enters `Halted` is the BRK instruction. -/
def Obligations.OnlyBrkHalts : Prop :=
  ∀ s t : State, s.run ≠ .halted → step s = .next t → t.run = .halted →
    s.run = .running ∧ ∃ later, StepDue s later ∧ s.readByte s.pc = 0x00#8

/-- R26, R70, R201, R202: the only step that enters `Faulted` is one that meets an illegal opcode byte, and
the record is of kind IllegalOpcode with that byte and PC; UnsupportedAddressingMode is unreachable. -/
def Obligations.FaultOnlyAtAnIllegalOpcode : Prop :=
  ∀ (s t : State) (f : Fault), s.run = .running → step s = .next t → t.run = .faulted f →
    f = .illegalOpcode (s.readByte s.pc) s.pc ∧ s.readByte s.pc ∈ illegalOpcodeBytes

/-- R41, R43, R55: an environment write stores one byte, every later read of that address gives it, every
other byte and the whole core are unchanged (that the environment may write between steps is D34: derived). -/
def Obligations.EnvironmentWriteStoresOneByte : Prop :=
  ∀ (s : State) (later : List Event) (a : Addr) (v : Byte), s.inputs = .write a v :: later →
    ∃ t, step s = .next t ∧ (∀ b, t.readByte b = if b = a then v else s.readByte b) ∧
      t.snapshot = s.snapshot ∧ t.inputs = later

/-- R52, R241: a store is seen by the very next fetch: after a store of A at PC (already past the store), the
first byte fetched at PC is A, and an instruction decoded there is the one whose opcode A is. R52 is marked as
the spec's own inference, so this is derived. -/
def Obligations.StoreIsSeenByTheNextFetch : Prop :=
  ∀ (s : State), ∃ t, exec (.staAbs s.pc) s = .next t ∧ t.pc = s.pc ∧
    (fetchBytes t).head? = some s.a ∧
    ∀ i rest, decode (fetchBytes t) = .ok (i, rest) → i.opcode = s.a

/-- A meaning never faults and never refuses, and neither does a step (R25, R41, R80, R200): every
instruction and every step of the machine answers a next state. -/
def Obligations.EveryInstructionAndEveryStepAnswersANextState : Prop :=
  (∀ (i : Instr) (s : State), ∃ t, exec i s = .next t) ∧ ∀ s : State, ∃ t, step s = .next t

/-! ## Interrupts (60_exceptions.md) -/

/-- R205, R206, R210, R213: while running, an IRQ offered with I clear is taken: the frame, SP, the flags and
PC, from 0xFFFE and 0xFFFF, as R206 gives them; offered with I set it is dropped and leaves no trace. The live Break and Unused bits
are the spec's own decision D14, the dropping D16, so this is derived. -/
def Obligations.IrqIsTakenUnlessMasked : Prop :=
  ∀ (s : State) (later : List Event), s.run = .running → s.inputs = .irq :: later →
    (s.flag .i = false → ∃ t, step s = .next t ∧ InterruptEntered 0xFFFE#16 s t ∧
      t.inputs = later) ∧
    (s.flag .i = true → step s = .next { s with inputs := later })

/-- R207, R210, R213: while running, an NMI is taken whatever I is, through its own vector at 0xFFFA and 0xFFFB, and sets I (that
it sets I is the spec's own decision D15, the live bits D14, so this is derived). -/
def Obligations.NmiIsAlwaysTaken : Prop :=
  ∀ (s : State) (later : List Event), s.run = .running → s.inputs = .nmi :: later →
    ∃ t, step s = .next t ∧ InterruptEntered 0xFFFA#16 s t ∧ t.inputs = later

/-- R209: NMI and then IRQ offered at one boundary: the NMI is taken, the IRQ meets I set and is dropped
(D15, D16, D17, so derived). -/
def Obligations.NmiThenIrqDropsTheIrq : Prop :=
  ∀ (s : State) (later : List Event), s.run = .running → s.inputs = .nmi :: .irq :: later →
    ∃ t, step s = .next t ∧ InterruptEntered 0xFFFA#16 s t ∧
      step t = .next { t with inputs := later }

/-- R206, R207, R169, R211: the return from an interrupt undoes the entry: PC, SP, the registers and C, Z, I,
D, V, N are as before the interrupt; only the live Break and Unused bits and the three bytes of the frame
differ (D14, D15, so derived). -/
def Obligations.ReturnFromInterruptUndoesTheEntry : Prop :=
  ∀ (s : State) (later : List Event), s.run = .running →
    (s.inputs = .irq :: later ∧ s.flag .i = false ∨ s.inputs = .nmi :: later) →
    ∃ t u, step s = .next t ∧ exec .rti t = .next u ∧ u.pc = s.pc ∧
      RegsKept [] s u ∧ FlagsKept [.b, .u] s u ∧ u.flag .b = false ∧ u.flag .u = false ∧
      MemKept [stackAddr s.sp, stackAddr (s.sp - 1), stackAddr (s.sp - 2)] s u ∧
      u.run = s.run ∧ u.inputs = later

/-! ## Reset (70_reset_and_hazards.md) -/

/-- R230, R231, R232: reset, whatever the state: the registers, status and run state at their reset values, PC
from the vector, memory untouched. That it does so from every run state and leaves `Running` is R233, the
spec's own decision D19, and that the action is used up is the model's schedule (Log 1: DESIGN CHOICE), so this
is derived. -/
def Obligations.ResetLeavesTheResetValues : Prop :=
  ∀ (s : State) (later : List Event), s.inputs = .reset :: later →
    step s = .next {
      a := 0x00#8, x := 0x00#8, y := 0x00#8, sp := 0xFF#8
      pc := BitVec.ofNat 16 ((s.readByte 0xFFFC#16).toNat + 256 * (s.readByte 0xFFFD#16).toNat)
      p := 0x20#8, run := .running, mem := s.mem, inputs := later }

/-- R32's reset determinism, for every address: the loader's two writes of a start address to the reset
vector and then a reset leave PC at that address and the other registers at their reset values, and the rest
of memory as it was. -/
def Obligations.SeededResetVectorStartsTheProgram : Prop :=
  ∀ (s : State) (start : Addr) (later : List Event),
    s.inputs = .write 0xFFFC#16 (lowByte start) :: .write 0xFFFD#16 (highByte start) :: .reset :: later →
    ∃ t u v, step s = .next t ∧ step t = .next u ∧ step u = .next v ∧
      v.snapshot = ⟨0x00#8, 0x00#8, 0x00#8, 0xFF#8, start, 0x20#8, .running⟩ ∧
      MemKept [0xFFFC#16, 0xFFFD#16] s v ∧ v.inputs = later

/-! ## A run (60_exceptions.md, 70_reset_and_hazards.md) -/

/-- R218, R245: `run()` loops the step while the core runs and stops at `Halted` and at `Faulted`. With any
fuel it ends in exactly one way: halted (or faulted) in a state exactly when a run gets there, stopped, within
the fuel; out of fuel in a state exactly when the core still runs there with all the fuel used. More fuel
changes neither of the two ends, their result is the snapshot and the dump of the final state, a byte for every
address, and a run out of fuel has no result. The fuel is the spec's own decision D32; that one unit of it is one
action of the environment is the model's choice (Log 14: DESIGN CHOICE), so this is derived. -/
def Obligations.RunStopsExactlyWhereTheCoreStops : Prop :=
  ∀ (fuel : Nat) (s : State),
    (∃ e, runWithFuel fuel s = .next e) ∧
    (∀ t, runWithFuel fuel s = .next (.halted t) ↔ t.run = .halted ∧ ∃ n, n ≤ fuel ∧ RunsIn n s t) ∧
    (∀ f t, runWithFuel fuel s = .next (.faulted f t) ↔
      t.run = .faulted f ∧ ∃ n, n ≤ fuel ∧ RunsIn n s t) ∧
    (∀ t, runWithFuel fuel s = .next (.outOfFuel t) ↔ t.run = .running ∧ RunsIn fuel s t) ∧
    (∀ e t, runWithFuel fuel s = .next e → e = .halted t ∨ (∃ f, e = .faulted f t) →
      (∀ more, runWithFuel (fuel + more) s = .next e) ∧ e.result = some ⟨t.snapshot, t.dump⟩ ∧
      t.dump.length = 65536 ∧ ∀ a : Addr, t.dump[a.toNat]? = some (t.readByte a)) ∧
    ∀ t, (RunEnd.outOfFuel t).result = none

/-! ## Encoding (30_encoding.md) -/

/-- Words written out bit by bit from opcode_table.json's encodings, one or two of each family (R61, R63; the
opcode map is decision D4: derived). -/
def Obligations.EncodedWordsDecode : Prop :=
  decodeTableWord 16 0b00000101_10101001 = some (.ldaImm 0x05#8) ∧
  decodeTableWord 24 0b00000010_00000000_10001101 = some (.staAbs 0x0200#16) ∧
  decodeTableWord 16 0b01010000_01101001 = some (.adcImm 0x50#8) ∧
  decodeTableWord 16 0b00100000_11110001 = some (.sbcIzy 0x20#8) ∧
  decodeTableWord 16 0b01000110_01000110 = some (.lsrZp 0x46#8) ∧
  decodeTableWord 16 0b01000101_01000101 = some (.eorZp 0x45#8) ∧
  decodeTableWord 8 0b00001010 = some .aslAcc ∧
  decodeTableWord 24 0b00010000_00000000_11011101 = some (.cmpAbx 0x1000#16) ∧
  decodeTableWord 16 0b11111001_11010000 = some (.bne 0xF9#8) ∧
  decodeTableWord 24 0b00010010_00110100_00100000 = some (.jsr 0x1234#16) ∧
  decodeTableWord 8 0b01000000 = some .rti ∧
  decodeTableWord 8 0b01111000 = some .sei ∧
  decodeTableWord 8 0b00000000 = some .brk ∧
  decodeTableWord 8 0b00000010 = none

/-- R60, R61, R63, R70 (the opcode map is decision D4: derived): decoding the bytes of any instruction, every
operand at every value, with anything after them, gives that instruction back and leaves what follows. -/
def Obligations.DecodeUndoesEncode : Prop :=
  ∀ (i : Instr) (after : List Byte), i.wf = true ∧ decode (encode i ++ after) = .ok (i, after)

/-- R60, R63, R65 (the opcode map is decision D4: derived), the other direction: whatever bytes decode to an
instruction are that instruction's own bytes followed by what was left, so no two byte sequences share a
meaning by a dropped bit. -/
def Obligations.EncodeUndoesDecode : Prop :=
  ∀ (bytes after : List Byte) (i : Instr), decode bytes = .ok (i, after) → encode i ++ after = bytes

/-- The modes and opcodes of each operation as its own rule lists them (the Operands and Opcode lines of R100
to R196): a third place of the spec, beside the opcode matrix the decoder reads and the table by mnemonic the
encoder follows. -/
def opcodesOfTheInstructionRules : Mnemonic → List (Mode × Byte)
  | .lda => [(.immediate, 0xA9), (.zeroPage, 0xA5), (.zeroPageX, 0xB5), (.absolute, 0xAD)] ++
    [(.absoluteX, 0xBD), (.absoluteY, 0xB9), (.indirectX, 0xA1), (.indirectY, 0xB1)]
  | .ldx => [(.immediate, 0xA2), (.zeroPage, 0xA6), (.zeroPageY, 0xB6), (.absolute, 0xAE)] ++
    [(.absoluteY, 0xBE)]
  | .ldy => [(.immediate, 0xA0), (.zeroPage, 0xA4), (.zeroPageX, 0xB4), (.absolute, 0xAC)] ++
    [(.absoluteX, 0xBC)]
  | .sta => [(.zeroPage, 0x85), (.zeroPageX, 0x95), (.absolute, 0x8D), (.absoluteX, 0x9D)] ++
    [(.absoluteY, 0x99), (.indirectX, 0x81), (.indirectY, 0x91)]
  | .stx => [(.zeroPage, 0x86), (.zeroPageY, 0x96), (.absolute, 0x8E)]
  | .sty => [(.zeroPage, 0x84), (.zeroPageX, 0x94), (.absolute, 0x8C)]
  | .adc => [(.immediate, 0x69), (.zeroPage, 0x65), (.zeroPageX, 0x75), (.absolute, 0x6D)] ++
    [(.absoluteX, 0x7D), (.absoluteY, 0x79), (.indirectX, 0x61), (.indirectY, 0x71)]
  | .sbc => [(.immediate, 0xE9), (.zeroPage, 0xE5), (.zeroPageX, 0xF5), (.absolute, 0xED)] ++
    [(.absoluteX, 0xFD), (.absoluteY, 0xF9), (.indirectX, 0xE1), (.indirectY, 0xF1)]
  | .and => [(.immediate, 0x29), (.zeroPage, 0x25), (.zeroPageX, 0x35), (.absolute, 0x2D)] ++
    [(.absoluteX, 0x3D), (.absoluteY, 0x39), (.indirectX, 0x21), (.indirectY, 0x31)]
  | .ora => [(.immediate, 0x09), (.zeroPage, 0x05), (.zeroPageX, 0x15), (.absolute, 0x0D)] ++
    [(.absoluteX, 0x1D), (.absoluteY, 0x19), (.indirectX, 0x01), (.indirectY, 0x11)]
  | .eor => [(.immediate, 0x49), (.zeroPage, 0x45), (.zeroPageX, 0x55), (.absolute, 0x4D)] ++
    [(.absoluteX, 0x5D), (.absoluteY, 0x59), (.indirectX, 0x41), (.indirectY, 0x51)]
  | .bit => [(.zeroPage, 0x24), (.absolute, 0x2C)]
  | .asl => [(.implied, 0x0A), (.zeroPage, 0x06), (.zeroPageX, 0x16), (.absolute, 0x0E)] ++
    [(.absoluteX, 0x1E)]
  | .lsr => [(.implied, 0x4A), (.zeroPage, 0x46), (.zeroPageX, 0x56), (.absolute, 0x4E)] ++
    [(.absoluteX, 0x5E)]
  | .rol => [(.implied, 0x2A), (.zeroPage, 0x26), (.zeroPageX, 0x36), (.absolute, 0x2E)] ++
    [(.absoluteX, 0x3E)]
  | .ror => [(.implied, 0x6A), (.zeroPage, 0x66), (.zeroPageX, 0x76), (.absolute, 0x6E)] ++
    [(.absoluteX, 0x7E)]
  | .cmp => [(.immediate, 0xC9), (.zeroPage, 0xC5), (.zeroPageX, 0xD5), (.absolute, 0xCD)] ++
    [(.absoluteX, 0xDD), (.absoluteY, 0xD9), (.indirectX, 0xC1), (.indirectY, 0xD1)]
  | .cpx => [(.immediate, 0xE0), (.zeroPage, 0xE4), (.absolute, 0xEC)]
  | .cpy => [(.immediate, 0xC0), (.zeroPage, 0xC4), (.absolute, 0xCC)]
  | .inc => [(.zeroPage, 0xE6), (.zeroPageX, 0xF6), (.absolute, 0xEE), (.absoluteX, 0xFE)]
  | .dec => [(.zeroPage, 0xC6), (.zeroPageX, 0xD6), (.absolute, 0xCE), (.absoluteX, 0xDE)]
  | .inx => [(.implied, 0xE8)]
  | .iny => [(.implied, 0xC8)]
  | .dex => [(.implied, 0xCA)]
  | .dey => [(.implied, 0x88)]
  | .bcc => [(.relative, 0x90)]
  | .bcs => [(.relative, 0xB0)]
  | .beq => [(.relative, 0xF0)]
  | .bne => [(.relative, 0xD0)]
  | .bmi => [(.relative, 0x30)]
  | .bpl => [(.relative, 0x10)]
  | .bvc => [(.relative, 0x50)]
  | .bvs => [(.relative, 0x70)]
  | .jmp => [(.absolute, 0x4C), (.indirect, 0x6C)]
  | .jsr => [(.absolute, 0x20)]
  | .rts => [(.implied, 0x60)]
  | .pha => [(.implied, 0x48)]
  | .php => [(.implied, 0x08)]
  | .pla => [(.implied, 0x68)]
  | .plp => [(.implied, 0x28)]
  | .rti => [(.implied, 0x40)]
  | .clc => [(.implied, 0x18)]
  | .sec => [(.implied, 0x38)]
  | .cld => [(.implied, 0xD8)]
  | .sed => [(.implied, 0xF8)]
  | .cli => [(.implied, 0x58)]
  | .sei => [(.implied, 0x78)]
  | .clv => [(.implied, 0xB8)]
  | .tax => [(.implied, 0xAA)]
  | .tay => [(.implied, 0xA8)]
  | .txa => [(.implied, 0x8A)]
  | .tya => [(.implied, 0x98)]
  | .tsx => [(.implied, 0xBA)]
  | .txs => [(.implied, 0x9A)]
  | .brk => [(.implied, 0x00)]
  | .nop => [(.implied, 0xEA)]

/-- R60, R63, R70 against R100 to R196: the instructions of an operation are, mode by mode and opcode by
opcode, those its own rule lists; none is missing and there is no other. The opcode map is the spec's own
decision D4 (G1), so this is derived. -/
def Obligations.OpcodesAreThoseOfTheInstructionRules : Prop :=
  ∀ (m : Mnemonic) (mode : Mode) (op : Byte), (mode, op) ∈ opcodesOfTheInstructionRules m ↔
    ∃ i : Instr, i.mnemonic = m ∧ i.operand.mode = mode ∧ i.opcode = op

/-! ## Whole-machine rules -/

/-- R56, R230, R231: the state after reset has its memory in canonical form (the model's own representation,
Log 4: DEDUCED) and is `Running`, not faulted, so it has the invariant. -/
def Obligations.InvariantHoldsAtReset : Prop := State.reset.Inv ∧ State.reset.run = .running

/-- The invariant is kept by every step, from every state that has it: memory stays in canonical form
(the model's own representation, Log 4: DEDUCED), and a fault record stays that of an illegal opcode at the address PC
holds (R26, R70, R201, R203). -/
def Obligations.EveryStepKeepsTheInvariant : Prop :=
  ∀ s t : State, s.Inv → step s = .next t → t.Inv

/-- The operations that write each flag, as R16 to R23 list them. -/
def flagWriters : Flag → List Mnemonic
  | .c => [.adc, .sbc, .asl, .lsr, .rol, .ror, .cmp, .cpx, .cpy, .clc, .sec, .plp, .rti]
  | .z => [.lda, .ldx, .ldy, .adc, .sbc, .and, .ora, .eor, .asl, .lsr, .rol, .ror, .cmp, .cpx, .cpy] ++
    [.inc, .dec, .inx, .iny, .dex, .dey, .tax, .tay, .txa, .tya, .tsx, .pla, .bit, .plp, .rti]
  | .i => [.sei, .cli, .plp, .rti]
  | .d => [.sed, .cld, .plp, .rti]
  | .b => [.php, .rti, .plp]
  | .u => [.php, .rti, .plp]
  | .v => [.adc, .sbc, .bit, .clv, .plp, .rti]
  | .n => [.lda, .ldx, .ldy, .adc, .sbc, .and, .ora, .eor, .asl, .lsr, .rol, .ror, .cmp, .cpx, .cpy] ++
    [.inc, .dec, .inx, .iny, .dex, .dey, .tax, .tay, .txa, .tya, .tsx, .pla, .bit, .plp, .rti]

/-- R16 to R24: an instruction that changes a flag is one of those the flag's own rule lists. SBC, BIT and
PLA are among them by the spec's own decisions D5, D6 and D11, so this is derived. -/
def Obligations.FlagsChangeOnlyByTheirWriters : Prop :=
  ∀ (i : Instr) (s t : State) (f : Flag), exec i s = .next t → t.flag f ≠ s.flag f →
    i.mnemonic ∈ flagWriters f

/-- R10 to R13: an instruction that changes A, X, Y or SP is one the register's own rule lists as writing
it, the accumulator forms of the shifts among them. -/
def Obligations.RegistersChangeOnlyByTheirWriters : Prop :=
  ∀ (i : Instr) (s t : State), exec i s = .next t →
    (t.a ≠ s.a → i.mnemonic ∈ [.lda, .adc, .sbc, .and, .ora, .eor, .pla, .txa, .tya] ∨
      (i.mnemonic ∈ [.asl, .lsr, .rol, .ror] ∧ i.operand = .implied)) ∧
    (t.x ≠ s.x → i.mnemonic ∈ [.ldx, .tax, .tsx, .inx, .dex]) ∧
    (t.y ≠ s.y → i.mnemonic ∈ [.ldy, .tay, .iny, .dey]) ∧
    (t.sp ≠ s.sp → i.mnemonic ∈ [.pha, .php, .pla, .plp, .jsr, .rts, .rti, .txs])

/-- R46, R54, R94: a byte of memory an instruction changes is either the one at the effective address of a
store or read-modify-write instruction, or one in page one that PHA, PHP or JSR pushes: the slot at the old SP,
or for JSR also the one below it, modulo 256 (the wrap is decision D13, so this is derived). -/
def Obligations.MemoryChangesOnlyByStoresAndPushes : Prop :=
  ∀ (i : Instr) (s t : State) (a : Addr), exec i s = .next t → t.readByte a ≠ s.readByte a →
    (i.mnemonic ∈ [.sta, .stx, .sty, .inc, .dec, .asl, .lsr, .rol, .ror] ∧
      ∃ m, i.operand = .mem m ∧ a = effAddr m s) ∨
    (i.mnemonic ∈ [.pha, .php, .jsr] ∧ 256 ≤ a.toNat ∧ a.toNat < 512 ∧
      (a = stackAddr s.sp ∨ i.mnemonic = .jsr ∧ a = stackAddr (s.sp - 1)))

/-- R33, which the spec marks as its own inference (so derived): the live Break and Unused bits never reach a
program. Two states that differ at most in those two
bits step to states that differ at most in those two bits: no register, no byte of memory, no other flag, no
program counter and no run state ever depends on them. -/
def Obligations.BreakAndUnusedNeverReachAProgram : Prop :=
  ∀ s s' t : State, SameButBreakUnused s s' → step s = .next t →
    ∃ t', step s' = .next t' ∧ SameButBreakUnused t t'
end

