-- ==== Sys2Proof/Laws/Decode.lean ====
section
/-! SUPPORT. The opcode matrix the decoder reads against the table by mnemonic the encoder writes (R63):
every cell of the matrix agrees with the table, every instruction is in the matrix, and what the decoder
makes of the three bytes of a fetch. -/

namespace Sys2Proof

/-- A cell of the matrix agrees with the table by mnemonic: the opcode is the cell's, and the operand bytes
are the ones consumed, in order. -/
def Form.Agrees (op : Byte) : Form → Prop
  | .bare i => i.opcode = op ∧ i.operand.bytes = []
  | .byte f => ∀ b, (f b).opcode = op ∧ (f b).operand.bytes = [b]
  | .word f => ∀ w, (f w).opcode = op ∧ (f w).operand.bytes = wordBytes w

/-- Every cell of the matrix agrees with the table by mnemonic (R63, R64). -/
theorem formOf_agrees_nat (n : Nat) (h : n < 256) :
    match formOf (BitVec.ofNat 8 n) with
    | none => True
    | some f => f.Agrees (BitVec.ofNat 8 n) := by
  interval_cases n <;>
    first
    | exact trivial
    | exact ⟨rfl, rfl⟩
    | exact fun _ => ⟨rfl, rfl⟩

theorem formOf_agrees (op : Byte) (f : Form) (h : formOf op = some f) : f.Agrees op := by
  have := formOf_agrees_nat op.toNat op.isLt
  rw [BitVec.ofNat_toNat, BitVec.setWidth_eq, h] at this
  exact this

/-- The form of an instruction in the matrix. -/
def Instr.IsForm (i : Instr) : Form → Prop
  | .bare j => i = j
  | .byte f => ∃ b, i = f b
  | .word f => ∃ w, i = f w

/-- Every instruction is in the matrix at its own opcode (R63, R70). -/
theorem isForm_at_opcode (i : Instr) :
    match formOf i.opcode with
    | none => False
    | some f => i.IsForm f := by
  cases i <;> dsimp only [Instr.opcode] <;>
    first
    | exact rfl
    | exact ⟨_, rfl⟩

theorem formOf_opcode (i : Instr) : ∃ f, formOf i.opcode = some f ∧ i.IsForm f := by
  have h := isForm_at_opcode i
  cases hf : formOf i.opcode with
  | none => rw [hf] at h; exact h.elim
  | some f => rw [hf] at h; exact ⟨f, rfl, h⟩

/-- What the decoder makes of three bytes, as a fetch reads them: an instruction exactly when the first has
a table entry; the list is never too short (R60, R65). -/
theorem decode_three (op b1 b2 : Byte) :
    decode [op, b1, b2] =
      match formOf op with
      | none => .error (.illegalOpcode op)
      | some (.bare i) => .ok (i, [b1, b2])
      | some (.byte f) => .ok (f b1, [b2])
      | some (.word f) => .ok (f (joinBytes b1 b2), []) := by
  cases h : formOf op with
  | none => simp only [decode, h]
  | some f => cases f <;> simp only [decode, h]

/-- The opcode of a decoded instruction is the first byte (R60). -/
theorem opcode_of_decode (op : Byte) (bs rest : List Byte) (i : Instr)
    (h : decode (op :: bs) = .ok (i, rest)) : i.opcode = op ∧ ∃ f, formOf op = some f := by
  simp only [decode] at h
  cases hf : formOf op with
  | none => simp [hf] at h
  | some f =>
    have ha := formOf_agrees op f hf
    refine ⟨?_, f, rfl⟩
    rw [hf] at h
    cases f with
    | bare j => simp at h; rw [← h.1]; exact ha.1
    | byte g =>
      cases bs with
      | nil => simp at h
      | cons b bs => simp at h; rw [← h.1]; exact (ha b).1
    | word g =>
      match bs, h with
      | [], h => simp at h
      | [_], h => simp at h
      | b :: c :: bs, h => simp at h; rw [← h.1]; exact (ha _).1

/-- The length is 1 plus the operand bytes the mode consumes (R60, R61). -/
theorem Instr.length_eq (i : Instr) : i.length = 1 + i.operand.mode.operandBytes := by
  cases i <;> rfl

/-- An instruction is one to three bytes long (R60). -/
theorem Instr.length_le (i : Instr) : 1 ≤ i.length ∧ i.length ≤ 3 := by
  rw [i.length_eq]
  cases i.operand.mode <;> decide

/-- Every instruction is well formed: the constructors are exactly the legal pairs (R70). -/
theorem Instr.wf_eq_true (i : Instr) : i.wf = true := by
  cases i <;> rfl

end Sys2Proof
end

