-- ==== Sys2Proof/Laws/State.lean ====
section
/-! SUPPORT. One lemma per field of State for each register update, and what the readers of State see of an
update; all true by `rfl`, so that no later proof unfolds a record update. -/

namespace Sys2Proof.Machine

variable (s : State)

/-! ### setA -/

@[simp] theorem State.setA_a (v : Byte) : (State.setA v s).a = v := rfl
@[simp] theorem State.setA_x (v : Byte) : (State.setA v s).x = s.x := rfl
@[simp] theorem State.setA_y (v : Byte) : (State.setA v s).y = s.y := rfl
@[simp] theorem State.setA_sp (v : Byte) : (State.setA v s).sp = s.sp := rfl
@[simp] theorem State.setA_pc (v : Byte) : (State.setA v s).pc = s.pc := rfl
@[simp] theorem State.setA_p (v : Byte) : (State.setA v s).p = s.p := rfl
@[simp] theorem State.setA_run (v : Byte) : (State.setA v s).run = s.run := rfl
@[simp] theorem State.setA_mem (v : Byte) : (State.setA v s).mem = s.mem := rfl
@[simp] theorem State.setA_inputs (v : Byte) : (State.setA v s).inputs = s.inputs := rfl
@[simp] theorem State.setA_readByte (v : Byte) (addr : Addr) : (State.setA v s).readByte addr = s.readByte addr := rfl
@[simp] theorem State.setA_readWord (v : Byte) (addr : Addr) : (State.setA v s).readWord addr = s.readWord addr := rfl
@[simp] theorem State.setA_flag (v : Byte) (f : Flag) : (State.setA v s).flag f = s.flag f := rfl

/-! ### setX -/

@[simp] theorem State.setX_a (v : Byte) : (State.setX v s).a = s.a := rfl
@[simp] theorem State.setX_x (v : Byte) : (State.setX v s).x = v := rfl
@[simp] theorem State.setX_y (v : Byte) : (State.setX v s).y = s.y := rfl
@[simp] theorem State.setX_sp (v : Byte) : (State.setX v s).sp = s.sp := rfl
@[simp] theorem State.setX_pc (v : Byte) : (State.setX v s).pc = s.pc := rfl
@[simp] theorem State.setX_p (v : Byte) : (State.setX v s).p = s.p := rfl
@[simp] theorem State.setX_run (v : Byte) : (State.setX v s).run = s.run := rfl
@[simp] theorem State.setX_mem (v : Byte) : (State.setX v s).mem = s.mem := rfl
@[simp] theorem State.setX_inputs (v : Byte) : (State.setX v s).inputs = s.inputs := rfl
@[simp] theorem State.setX_readByte (v : Byte) (addr : Addr) : (State.setX v s).readByte addr = s.readByte addr := rfl
@[simp] theorem State.setX_readWord (v : Byte) (addr : Addr) : (State.setX v s).readWord addr = s.readWord addr := rfl
@[simp] theorem State.setX_flag (v : Byte) (f : Flag) : (State.setX v s).flag f = s.flag f := rfl

/-! ### setY -/

@[simp] theorem State.setY_a (v : Byte) : (State.setY v s).a = s.a := rfl
@[simp] theorem State.setY_x (v : Byte) : (State.setY v s).x = s.x := rfl
@[simp] theorem State.setY_y (v : Byte) : (State.setY v s).y = v := rfl
@[simp] theorem State.setY_sp (v : Byte) : (State.setY v s).sp = s.sp := rfl
@[simp] theorem State.setY_pc (v : Byte) : (State.setY v s).pc = s.pc := rfl
@[simp] theorem State.setY_p (v : Byte) : (State.setY v s).p = s.p := rfl
@[simp] theorem State.setY_run (v : Byte) : (State.setY v s).run = s.run := rfl
@[simp] theorem State.setY_mem (v : Byte) : (State.setY v s).mem = s.mem := rfl
@[simp] theorem State.setY_inputs (v : Byte) : (State.setY v s).inputs = s.inputs := rfl
@[simp] theorem State.setY_readByte (v : Byte) (addr : Addr) : (State.setY v s).readByte addr = s.readByte addr := rfl
@[simp] theorem State.setY_readWord (v : Byte) (addr : Addr) : (State.setY v s).readWord addr = s.readWord addr := rfl
@[simp] theorem State.setY_flag (v : Byte) (f : Flag) : (State.setY v s).flag f = s.flag f := rfl

/-! ### setSP -/

@[simp] theorem State.setSP_a (v : Byte) : (State.setSP v s).a = s.a := rfl
@[simp] theorem State.setSP_x (v : Byte) : (State.setSP v s).x = s.x := rfl
@[simp] theorem State.setSP_y (v : Byte) : (State.setSP v s).y = s.y := rfl
@[simp] theorem State.setSP_sp (v : Byte) : (State.setSP v s).sp = v := rfl
@[simp] theorem State.setSP_pc (v : Byte) : (State.setSP v s).pc = s.pc := rfl
@[simp] theorem State.setSP_p (v : Byte) : (State.setSP v s).p = s.p := rfl
@[simp] theorem State.setSP_run (v : Byte) : (State.setSP v s).run = s.run := rfl
@[simp] theorem State.setSP_mem (v : Byte) : (State.setSP v s).mem = s.mem := rfl
@[simp] theorem State.setSP_inputs (v : Byte) : (State.setSP v s).inputs = s.inputs := rfl
@[simp] theorem State.setSP_readByte (v : Byte) (addr : Addr) : (State.setSP v s).readByte addr = s.readByte addr := rfl
@[simp] theorem State.setSP_readWord (v : Byte) (addr : Addr) : (State.setSP v s).readWord addr = s.readWord addr := rfl
@[simp] theorem State.setSP_flag (v : Byte) (f : Flag) : (State.setSP v s).flag f = s.flag f := rfl

/-! ### setPC -/

@[simp] theorem State.setPC_a (v : Addr) : (State.setPC v s).a = s.a := rfl
@[simp] theorem State.setPC_x (v : Addr) : (State.setPC v s).x = s.x := rfl
@[simp] theorem State.setPC_y (v : Addr) : (State.setPC v s).y = s.y := rfl
@[simp] theorem State.setPC_sp (v : Addr) : (State.setPC v s).sp = s.sp := rfl
@[simp] theorem State.setPC_pc (v : Addr) : (State.setPC v s).pc = v := rfl
@[simp] theorem State.setPC_p (v : Addr) : (State.setPC v s).p = s.p := rfl
@[simp] theorem State.setPC_run (v : Addr) : (State.setPC v s).run = s.run := rfl
@[simp] theorem State.setPC_mem (v : Addr) : (State.setPC v s).mem = s.mem := rfl
@[simp] theorem State.setPC_inputs (v : Addr) : (State.setPC v s).inputs = s.inputs := rfl
@[simp] theorem State.setPC_readByte (v : Addr) (addr : Addr) : (State.setPC v s).readByte addr = s.readByte addr := rfl
@[simp] theorem State.setPC_readWord (v : Addr) (addr : Addr) : (State.setPC v s).readWord addr = s.readWord addr := rfl
@[simp] theorem State.setPC_flag (v : Addr) (f : Flag) : (State.setPC v s).flag f = s.flag f := rfl

/-! ### setP -/

@[simp] theorem State.setP_a (v : Byte) : (State.setP v s).a = s.a := rfl
@[simp] theorem State.setP_x (v : Byte) : (State.setP v s).x = s.x := rfl
@[simp] theorem State.setP_y (v : Byte) : (State.setP v s).y = s.y := rfl
@[simp] theorem State.setP_sp (v : Byte) : (State.setP v s).sp = s.sp := rfl
@[simp] theorem State.setP_pc (v : Byte) : (State.setP v s).pc = s.pc := rfl
@[simp] theorem State.setP_p (v : Byte) : (State.setP v s).p = v := rfl
@[simp] theorem State.setP_run (v : Byte) : (State.setP v s).run = s.run := rfl
@[simp] theorem State.setP_mem (v : Byte) : (State.setP v s).mem = s.mem := rfl
@[simp] theorem State.setP_inputs (v : Byte) : (State.setP v s).inputs = s.inputs := rfl
@[simp] theorem State.setP_readByte (v : Byte) (addr : Addr) : (State.setP v s).readByte addr = s.readByte addr := rfl
@[simp] theorem State.setP_readWord (v : Byte) (addr : Addr) : (State.setP v s).readWord addr = s.readWord addr := rfl
@[simp] theorem State.setP_flag (v : Byte) (f : Flag) : (State.setP v s).flag f = getFlag f v := rfl

/-! ### setRun -/

@[simp] theorem State.setRun_a (v : RunState) : (State.setRun v s).a = s.a := rfl
@[simp] theorem State.setRun_x (v : RunState) : (State.setRun v s).x = s.x := rfl
@[simp] theorem State.setRun_y (v : RunState) : (State.setRun v s).y = s.y := rfl
@[simp] theorem State.setRun_sp (v : RunState) : (State.setRun v s).sp = s.sp := rfl
@[simp] theorem State.setRun_pc (v : RunState) : (State.setRun v s).pc = s.pc := rfl
@[simp] theorem State.setRun_p (v : RunState) : (State.setRun v s).p = s.p := rfl
@[simp] theorem State.setRun_run (v : RunState) : (State.setRun v s).run = v := rfl
@[simp] theorem State.setRun_mem (v : RunState) : (State.setRun v s).mem = s.mem := rfl
@[simp] theorem State.setRun_inputs (v : RunState) : (State.setRun v s).inputs = s.inputs := rfl
@[simp] theorem State.setRun_readByte (v : RunState) (addr : Addr) : (State.setRun v s).readByte addr = s.readByte addr := rfl
@[simp] theorem State.setRun_readWord (v : RunState) (addr : Addr) : (State.setRun v s).readWord addr = s.readWord addr := rfl
@[simp] theorem State.setRun_flag (v : RunState) (f : Flag) : (State.setRun v s).flag f = s.flag f := rfl

/-! ### setInputs -/

@[simp] theorem State.setInputs_a (v : List Event) : (State.setInputs v s).a = s.a := rfl
@[simp] theorem State.setInputs_x (v : List Event) : (State.setInputs v s).x = s.x := rfl
@[simp] theorem State.setInputs_y (v : List Event) : (State.setInputs v s).y = s.y := rfl
@[simp] theorem State.setInputs_sp (v : List Event) : (State.setInputs v s).sp = s.sp := rfl
@[simp] theorem State.setInputs_pc (v : List Event) : (State.setInputs v s).pc = s.pc := rfl
@[simp] theorem State.setInputs_p (v : List Event) : (State.setInputs v s).p = s.p := rfl
@[simp] theorem State.setInputs_run (v : List Event) : (State.setInputs v s).run = s.run := rfl
@[simp] theorem State.setInputs_mem (v : List Event) : (State.setInputs v s).mem = s.mem := rfl
@[simp] theorem State.setInputs_inputs (v : List Event) : (State.setInputs v s).inputs = v := rfl
@[simp] theorem State.setInputs_readByte (v : List Event) (addr : Addr) : (State.setInputs v s).readByte addr = s.readByte addr := rfl
@[simp] theorem State.setInputs_readWord (v : List Event) (addr : Addr) : (State.setInputs v s).readWord addr = s.readWord addr := rfl
@[simp] theorem State.setInputs_flag (v : List Event) (f : Flag) : (State.setInputs v s).flag f = s.flag f := rfl

/-! ### setFlag -/

@[simp] theorem State.setFlag_a (f : Flag) (v : Bool) : (State.setFlag f v s).a = s.a := rfl
@[simp] theorem State.setFlag_x (f : Flag) (v : Bool) : (State.setFlag f v s).x = s.x := rfl
@[simp] theorem State.setFlag_y (f : Flag) (v : Bool) : (State.setFlag f v s).y = s.y := rfl
@[simp] theorem State.setFlag_sp (f : Flag) (v : Bool) : (State.setFlag f v s).sp = s.sp := rfl
@[simp] theorem State.setFlag_pc (f : Flag) (v : Bool) : (State.setFlag f v s).pc = s.pc := rfl
@[simp] theorem State.setFlag_p (f : Flag) (v : Bool) : (State.setFlag f v s).p = putFlag f v s.p := rfl
@[simp] theorem State.setFlag_run (f : Flag) (v : Bool) : (State.setFlag f v s).run = s.run := rfl
@[simp] theorem State.setFlag_mem (f : Flag) (v : Bool) : (State.setFlag f v s).mem = s.mem := rfl
@[simp] theorem State.setFlag_inputs (f : Flag) (v : Bool) : (State.setFlag f v s).inputs = s.inputs := rfl
@[simp] theorem State.setFlag_readByte (f : Flag) (v : Bool) (addr : Addr) :
    (State.setFlag f v s).readByte addr = s.readByte addr := rfl
@[simp] theorem State.setFlag_readWord (f : Flag) (v : Bool) (addr : Addr) :
    (State.setFlag f v s).readWord addr = s.readWord addr := rfl

/-! ### writeByte -/

@[simp] theorem State.writeByte_a (addr : Addr) (v : Byte) : (State.writeByte addr v s).a = s.a := rfl
@[simp] theorem State.writeByte_x (addr : Addr) (v : Byte) : (State.writeByte addr v s).x = s.x := rfl
@[simp] theorem State.writeByte_y (addr : Addr) (v : Byte) : (State.writeByte addr v s).y = s.y := rfl
@[simp] theorem State.writeByte_sp (addr : Addr) (v : Byte) : (State.writeByte addr v s).sp = s.sp := rfl
@[simp] theorem State.writeByte_pc (addr : Addr) (v : Byte) : (State.writeByte addr v s).pc = s.pc := rfl
@[simp] theorem State.writeByte_p (addr : Addr) (v : Byte) : (State.writeByte addr v s).p = s.p := rfl
@[simp] theorem State.writeByte_run (addr : Addr) (v : Byte) : (State.writeByte addr v s).run = s.run := rfl
@[simp] theorem State.writeByte_mem (addr : Addr) (v : Byte) : (State.writeByte addr v s).mem = s.mem.write addr.toNat v := rfl
@[simp] theorem State.writeByte_inputs (addr : Addr) (v : Byte) : (State.writeByte addr v s).inputs = s.inputs := rfl
@[simp] theorem State.writeByte_flag (addr : Addr) (v : Byte) (f : Flag) : (State.writeByte addr v s).flag f = s.flag f := rfl

/-! ### Registers by name -/

@[simp] theorem State.reg_a : s.reg .a = s.a := rfl
@[simp] theorem State.reg_x : s.reg .x = s.x := rfl
@[simp] theorem State.reg_y : s.reg .y = s.y := rfl
@[simp] theorem State.reg_sp : s.reg .sp = s.sp := rfl

end Sys2Proof.Machine
end

