-- ==== Sys2Proof/Laws/Flags.lean ====
section
/-! SUPPORT. The status register bit by bit: what a flag write does to every flag (R24), that the eight
flags are the whole register (R15), and what each flag computation writes and leaves. -/

namespace Sys2Proof.Machine

/-! ## Single bits -/

/-- A flag write changes that flag and no other (R24). -/
@[simp] theorem getFlag_putFlag (f g : Flag) (v : Bool) (p : Byte) :
    getFlag f (putFlag g v p) = if f = g then v else getFlag f p := by
  cases f <;> cases g <;> cases v <;> simp [getFlag, putFlag, Flag.position, Flag.mask]

@[simp] theorem State.flag_setFlag (s : State) (f g : Flag) (v : Bool) :
    (State.setFlag g v s).flag f = if f = g then v else s.flag f := by
  simp [State.flag]

/-- The eight flags are all of the status register (R15). -/
theorem status_ext (p q : Byte) : p = q ↔ ∀ f, getFlag f p = getFlag f q := by
  constructor
  · rintro rfl _; rfl
  · intro h
    have hc := h .c; have hz := h .z; have hi := h .i; have hd := h .d
    have hb := h .b; have hu := h .u; have hv := h .v; have hn := h .n
    simp only [getFlag, Flag.position] at hc hz hi hd hb hu hv hn
    apply BitVec.eq_of_getLsbD_eq
    intro i hi'
    match i, hi' with
    | 0, _ => exact hc
    | 1, _ => exact hz
    | 2, _ => exact hi
    | 3, _ => exact hd
    | 4, _ => exact hb
    | 5, _ => exact hu
    | 6, _ => exact hv
    | 7, _ => exact hn

@[simp] theorem isZero_eq_true (v : Byte) : isZero v = true ↔ v = 0x00#8 := by simp [isZero]

/-! ## Zero and Negative (R96) -/

section SetZN
variable (v : Byte) (s : State)

@[simp] theorem setZN_a : (setZN v s).a = s.a := rfl
@[simp] theorem setZN_x : (setZN v s).x = s.x := rfl
@[simp] theorem setZN_y : (setZN v s).y = s.y := rfl
@[simp] theorem setZN_sp : (setZN v s).sp = s.sp := rfl
@[simp] theorem setZN_pc : (setZN v s).pc = s.pc := rfl
@[simp] theorem setZN_run : (setZN v s).run = s.run := rfl
@[simp] theorem setZN_mem : (setZN v s).mem = s.mem := rfl
@[simp] theorem setZN_inputs : (setZN v s).inputs = s.inputs := rfl
@[simp] theorem setZN_readByte (addr : Addr) : (setZN v s).readByte addr = s.readByte addr := rfl

/-- What `SetZN` does to every flag: Z and N from the byte, no other (R96). -/
@[simp] theorem flag_setZN (f : Flag) :
    (setZN v s).flag f = if f = .z then isZero v else if f = .n then isNegative v else s.flag f := by
  cases f <;> simp [setZN]

end SetZN

/-! ## Addition, compares, shifts -/

section Alu
variable (data : Byte) (s : State)

@[simp] theorem addToA_a : (addToA data s).a = addResult s.a data (s.flag .c) := rfl
@[simp] theorem addToA_x : (addToA data s).x = s.x := rfl
@[simp] theorem addToA_y : (addToA data s).y = s.y := rfl
@[simp] theorem addToA_sp : (addToA data s).sp = s.sp := rfl
@[simp] theorem addToA_pc : (addToA data s).pc = s.pc := rfl
@[simp] theorem addToA_run : (addToA data s).run = s.run := rfl
@[simp] theorem addToA_mem : (addToA data s).mem = s.mem := rfl
@[simp] theorem addToA_inputs : (addToA data s).inputs = s.inputs := rfl

/-- What an addition does to every flag: C, V from the sum, Z, N from the result, no other (R110). -/
theorem flag_addToA (f : Flag) : (addToA data s).flag f =
    if f = .c then addCarry s.a data (s.flag .c)
    else if f = .v then addOverflow s.a data (s.flag .c)
    else if f = .z then isZero (addResult s.a data (s.flag .c))
    else if f = .n then isNegative (addResult s.a data (s.flag .c))
    else s.flag f := by
  show (setZN (addResult s.a data (s.flag .c))
    (State.setFlag .v (addOverflow s.a data (s.flag .c))
      (State.setFlag .c (addCarry s.a data (s.flag .c)) s))).flag f = _
  cases f <;> simp

variable (reg : Byte)

@[simp] theorem compareWith_a : (compareWith reg data s).a = s.a := rfl
@[simp] theorem compareWith_x : (compareWith reg data s).x = s.x := rfl
@[simp] theorem compareWith_y : (compareWith reg data s).y = s.y := rfl
@[simp] theorem compareWith_sp : (compareWith reg data s).sp = s.sp := rfl
@[simp] theorem compareWith_pc : (compareWith reg data s).pc = s.pc := rfl
@[simp] theorem compareWith_run : (compareWith reg data s).run = s.run := rfl
@[simp] theorem compareWith_mem : (compareWith reg data s).mem = s.mem := rfl
@[simp] theorem compareWith_inputs : (compareWith reg data s).inputs = s.inputs := rfl

/-- The low byte of the 16-bit temporary of a compare is the difference modulo 256 (R130). -/
@[simp] theorem lowByte_compareDifference : lowByte (compareDifference reg data) = reg - data := by
  apply BitVec.eq_of_toNat_eq
  simp [lowByte, compareDifference, BitVec.toNat_sub, BitVec.extractLsb'_toNat]
  omega

/-- What a compare does to every flag: C from the unsigned order, Z, N from the difference (R130). -/
theorem flag_compareWith (f : Flag) : (compareWith reg data s).flag f =
    if f = .c then compareCarry reg data
    else if f = .z then isZero (reg - data)
    else if f = .n then isNegative (reg - data)
    else s.flag f := by
  cases f <;> simp [compareWith]

variable (out : Shifted)

@[simp] theorem setShiftFlags_a : (setShiftFlags out s).a = s.a := rfl
@[simp] theorem setShiftFlags_x : (setShiftFlags out s).x = s.x := rfl
@[simp] theorem setShiftFlags_y : (setShiftFlags out s).y = s.y := rfl
@[simp] theorem setShiftFlags_sp : (setShiftFlags out s).sp = s.sp := rfl
@[simp] theorem setShiftFlags_pc : (setShiftFlags out s).pc = s.pc := rfl
@[simp] theorem setShiftFlags_run : (setShiftFlags out s).run = s.run := rfl
@[simp] theorem setShiftFlags_mem : (setShiftFlags out s).mem = s.mem := rfl
@[simp] theorem setShiftFlags_inputs : (setShiftFlags out s).inputs = s.inputs := rfl

/-- What a shift does to every flag: C the bit shifted out, Z, N from the result (R120 to R123). -/
theorem flag_setShiftFlags (f : Flag) : (setShiftFlags out s).flag f =
    if f = .c then out.carry
    else if f = .z then isZero out.result
    else if f = .n then isNegative out.result
    else s.flag f := by
  cases f <;> simp [setShiftFlags]

end Alu

end Sys2Proof.Machine
end

