-- ==== Sys2Proof/Laws/Memory.lean ====
section
/-! SUPPORT. Memory as data: a read after a write, and that every memory operation keeps the canonical form,
in which equal memories are equal lists (R41, R43). -/

namespace Sys2Proof.Machine

/-! ## Reads -/

theorem Memory.read_remove (m : Memory) (a b : Nat) :
    (m.remove a).read b = if b = a then Config.unwrittenByte else m.read b := by
  induction m with
  | nil => simp [Memory.remove, Memory.read]
  | cons cell m ih =>
    obtain ⟨k, v⟩ := cell
    simp only [Memory.remove] at ih
    by_cases hk : k = a
    · subst hk
      by_cases hb : b = k
      · simp [Memory.remove, hb] at ih ⊢; exact ih
      · have : k ≠ b := fun h => hb h.symm
        simp [Memory.remove, Memory.read, hb, this] at ih ⊢; exact ih
    · by_cases hb : k = b
      · subst hb; simp [Memory.remove, Memory.read, hk]
      · simp [Memory.remove, Memory.read, hk, hb, ih]

/-- Inserting at an address that is not listed. -/
theorem Memory.read_place (m : Memory) (a b : Nat) (v : Byte) (h : ∀ cell ∈ m, cell.1 ≠ a) :
    (m.place a v).read b = if b = a then v else m.read b := by
  induction m with
  | nil => by_cases hb : a = b <;> simp [Memory.place, Memory.read, hb, eq_comm]
  | cons cell m ih =>
    obtain ⟨k, w⟩ := cell
    have hk : k ≠ a := h (k, w) (by simp)
    have ih := ih (fun c hc => h c (by simp [hc]))
    unfold Memory.place
    split
    · by_cases hb : a = b
      · simp [Memory.read, hb]
      · have hb' : b ≠ a := fun h => hb h.symm
        simp [Memory.read, hb, hb']
    · by_cases hb : k = b
      · subst hb; simp [Memory.read, hk]
      · simp [Memory.read, hb, ih]

theorem Memory.not_mem_remove (m : Memory) (a : Nat) : ∀ cell ∈ m.remove a, cell.1 ≠ a := by
  intro cell hc
  simp [Memory.remove] at hc
  exact hc.2

/-- A read after a write (R41, R43): the value written at that address, the old byte everywhere else. -/
theorem Memory.read_write (m : Memory) (a b : Nat) (v : Byte) :
    (m.write a v).read b = if b = a then v else m.read b := by
  unfold Memory.write
  split
  · next h => rw [Memory.read_remove, h]
  · rw [Memory.read_place _ _ _ _ (Memory.not_mem_remove m a), Memory.read_remove]
    split <;> rfl

/-- Two addresses are the same as soon as they are the same number. -/
theorem addr_toNat_eq (a b : Addr) : a.toNat = b.toNat ↔ a = b := BitVec.toNat_inj

/-- The memory port: a read after a write (R41, R43). -/
theorem State.readByte_writeByte (s : State) (a b : Addr) (v : Byte) :
    (State.writeByte a v s).readByte b = if b = a then v else s.readByte b := by
  simp [State.readByte, State.writeByte, Memory.read_write, BitVec.toNat_inj]

@[simp] theorem State.readByte_writeByte_same (s : State) (a : Addr) (v : Byte) :
    (State.writeByte a v s).readByte a = v := by
  simp [State.readByte_writeByte]

theorem State.readByte_writeByte_other (s : State) (a b : Addr) (v : Byte) (h : b ≠ a) :
    (State.writeByte a v s).readByte b = s.readByte b := by
  simp [State.readByte_writeByte, h]

/-! ## The canonical form -/

theorem Memory.wf_cons (k : Nat) (v : Byte) (m : Memory) :
    Memory.wf ((k, v) :: m) = true ↔
      k < 65536 ∧ v ≠ Config.unwrittenByte ∧ (∀ cell ∈ m, k < cell.1) ∧ Memory.wf m = true := by
  simp only [Memory.wf, Bool.and_eq_true, decide_eq_true_eq, List.all_eq_true, bne_iff_ne, and_assoc]
  exact Iff.rfl

theorem Memory.remove_wf (m : Memory) (a : Nat) (h : m.wf = true) : (m.remove a).wf = true := by
  induction m with
  | nil => rfl
  | cons cell m ih =>
    obtain ⟨k, v⟩ := cell
    rw [Memory.wf_cons] at h
    obtain ⟨hk, hv, hlt, hm⟩ := h
    have ih := ih hm
    by_cases ha : k = a
    · simpa [Memory.remove, ha] using ih
    · have heq : Memory.remove ((k, v) :: m) a = (k, v) :: Memory.remove m a := by simp [Memory.remove, ha]
      rw [heq, Memory.wf_cons]
      exact ⟨hk, hv, fun c hc => hlt c (List.mem_of_mem_filter hc), ih⟩

theorem Memory.mem_place (m : Memory) (a : Nat) (v : Byte) (cell : Host.Cell) :
    cell ∈ m.place a v ↔ cell = (a, v) ∨ cell ∈ m := by
  induction m with
  | nil => simp [Memory.place]
  | cons c m ih =>
    obtain ⟨k, w⟩ := c
    unfold Memory.place
    split
    · simp
    · simp only [List.mem_cons, ih]; exact or_left_comm

theorem Memory.place_wf (m : Memory) (a : Nat) (v : Byte) (ha : a < 65536)
    (hv : v ≠ Config.unwrittenByte) (hne : ∀ cell ∈ m, cell.1 ≠ a) (h : m.wf = true) :
    (m.place a v).wf = true := by
  induction m with
  | nil => simp [Memory.place, Memory.wf, Config.memorySize, ha, hv]
  | cons cell m ih =>
    obtain ⟨k, w⟩ := cell
    rw [Memory.wf_cons] at h
    obtain ⟨hk, hw, hlt, hm⟩ := h
    have hka : k ≠ a := hne (k, w) (by simp)
    unfold Memory.place
    split
    · next hak =>
      rw [Memory.wf_cons, Memory.wf_cons]
      refine ⟨ha, hv, ?_, hk, hw, hlt, hm⟩
      intro c hc
      rcases List.mem_cons.mp hc with rfl | hc
      · exact hak
      · exact Nat.lt_trans hak (hlt c hc)
    · next hak =>
      rw [Memory.wf_cons]
      refine ⟨hk, hw, ?_, ih (fun c hc => hne c (by simp [hc])) hm⟩
      intro c hc
      rcases (Memory.mem_place m a v c).mp hc with rfl | hc
      · show k < a
        omega
      · exact hlt c hc

/-- A write at an address of the address space keeps the canonical form. -/
theorem Memory.write_wf (m : Memory) (a : Nat) (v : Byte) (ha : a < 65536) (h : m.wf = true) :
    (m.write a v).wf = true := by
  unfold Memory.write
  split
  · exact Memory.remove_wf m a h
  · next hv => exact Memory.place_wf _ a v ha hv (Memory.not_mem_remove m a) (Memory.remove_wf m a h)

/-- The memory port keeps the canonical form (R41). -/
theorem State.writeByte_wf (s : State) (a : Addr) (v : Byte) (h : s.mem.wf = true) :
    (State.writeByte a v s).mem.wf = true :=
  Memory.write_wf s.mem a.toNat v a.isLt h

/-- The memory after reset is in canonical form. -/
theorem State.reset_mem_wf : State.reset.mem.wf = true := rfl

theorem Memory.read_of_forall_lt (m : Memory) (a : Nat) (h : ∀ cell ∈ m, a < cell.1) :
    m.read a = Config.unwrittenByte := by
  induction m with
  | nil => rfl
  | cons cell m ih =>
    obtain ⟨k, v⟩ := cell
    have hk : k ≠ a := Nat.ne_of_gt (h (k, v) (by simp))
    simp [Memory.read, hk, ih (fun c hc => h c (by simp [hc]))]

/-- In canonical form, memories that read alike at every address are equal as data. -/
theorem Memory.ext_of_wf (m n : Memory) (hm : m.wf = true) (hn : n.wf = true)
    (h : ∀ a, m.read a = n.read a) : m = n := by
  induction m generalizing n with
  | nil =>
    cases n with
    | nil => rfl
    | cons cell n =>
      obtain ⟨k, v⟩ := cell
      have := h k
      rw [Memory.wf_cons] at hn
      simp [Memory.read] at this
      exact absurd this.symm hn.2.1
  | cons cell m ih =>
    obtain ⟨k, v⟩ := cell
    rw [Memory.wf_cons] at hm
    obtain ⟨_, hv, hlt, hm⟩ := hm
    cases n with
    | nil =>
      have := h k
      simp [Memory.read] at this
      exact absurd this hv
    | cons cell' n =>
      obtain ⟨k', v'⟩ := cell'
      rw [Memory.wf_cons] at hn
      obtain ⟨_, hv', hlt', hn⟩ := hn
      have hkk : k = k' := by
        rcases Nat.lt_trichotomy k k' with hlt1 | heq | hlt1
        · have h1 := h k
          have h2 : Memory.read ((k', v') :: n) k = Config.unwrittenByte :=
            Memory.read_of_forall_lt _ _ (by
              intro c hc
              rcases List.mem_cons.mp hc with rfl | hc
              · exact hlt1
              · exact Nat.lt_trans hlt1 (hlt' c hc))
          rw [h2] at h1
          simp [Memory.read] at h1
          exact absurd h1 hv
        · exact heq
        · have h1 := h k'
          have h2 : Memory.read ((k, v) :: m) k' = Config.unwrittenByte :=
            Memory.read_of_forall_lt _ _ (by
              intro c hc
              rcases List.mem_cons.mp hc with rfl | hc
              · exact hlt1
              · exact Nat.lt_trans hlt1 (hlt c hc))
          rw [h2] at h1
          simp [Memory.read] at h1
          exact absurd h1.symm hv'
      subst hkk
      have hvv : v = v' := by simpa [Memory.read] using h k
      subst hvv
      have : m = n := by
        refine ih n hm hn (fun a => ?_)
        by_cases ha : k = a
        · subst ha
          rw [Memory.read_of_forall_lt m k hlt, Memory.read_of_forall_lt n k hlt']
        · simpa [Memory.read, ha] using h a
      rw [this]

end Sys2Proof.Machine
end

