-- ==== Sys2Proof/Laws/Ops.lean ====
section
/-! SUPPORT. One lemma for each shared operation that says everything it does: the stack (R94, R95), the
register moves, shifts and read-modify-writes of the families, interrupt entry and return (R206, R207,
R169), reset (R230). Later proofs cite these and do not unfold the operations. -/

namespace Sys2Proof.Machine

/-! ## The stack -/

/-- Stack addresses are 0x0100 + SP and never leave page one (R13). -/
theorem stackAddr_toNat (sp : Byte) : (stackAddr sp).toNat = 256 + sp.toNat := by
  have := sp.isLt
  simp [stackAddr, Config.stackBase, BitVec.toNat_add]
  omega

/-- Different stack pointers name different addresses. -/
@[simp] theorem stackAddr_inj (u v : Byte) : stackAddr u = stackAddr v ↔ u = v := by
  constructor
  · intro h
    have := congrArg BitVec.toNat h
    rw [stackAddr_toNat, stackAddr_toNat] at this
    apply BitVec.eq_of_toNat_eq
    omega
  · rintro rfl; rfl

/-- `Push8` writes one byte and decrements SP (R94). -/
theorem push8_spec (v : Byte) (s : State) :
    push8 v s = { s with mem := s.mem.write (stackAddr s.sp).toNat v, sp := s.sp - 1 } := rfl

/-- `Pop8` increments SP and changes nothing else (R95). -/
theorem pop8_spec (s : State) : pop8 s = { s with sp := s.sp + 1 } := rfl

/-- The byte `Pop8` returns (R95). -/
theorem popped8_spec (s : State) : popped8 s = s.readByte (stackAddr (s.sp + 1)) := rfl

/-- What a push leaves in memory (R94). -/
theorem readByte_push8 (v : Byte) (s : State) (addr : Addr) :
    (push8 v s).readByte addr = if addr = stackAddr s.sp then v else s.readByte addr :=
  State.readByte_writeByte s (stackAddr s.sp) addr v

@[simp] theorem push8_flag (v : Byte) (s : State) (f : Flag) : (push8 v s).flag f = s.flag f := rfl
@[simp] theorem pop8_flag (s : State) (f : Flag) : (pop8 s).flag f = s.flag f := rfl
@[simp] theorem pop8_readByte (s : State) (addr : Addr) : (pop8 s).readByte addr = s.readByte addr := rfl
@[simp] theorem push8_sp (v : Byte) (s : State) : (push8 v s).sp = s.sp - 1 := rfl
@[simp] theorem pop8_sp (s : State) : (pop8 s).sp = s.sp + 1 := rfl

/-- A push then a pop returns the byte pushed and restores SP (R94, R95). -/
theorem popped8_push8 (v : Byte) (s : State) : popped8 (push8 v s) = v ∧ (pop8 (push8 v s)).sp = s.sp := by
  constructor
  · simp [popped8, readByte_push8]
  · simp

/-- A 16-bit push: the high byte at the old SP, the low byte one below, SP lower by 2 (R155, R206). -/
theorem push16_spec (w : Addr) (s : State) :
    push16 w s = { s with
      mem := (s.mem.write (stackAddr s.sp).toNat (highByte w)).write (stackAddr (s.sp - 1)).toNat (lowByte w)
      sp := s.sp - 1 - 1 } := rfl

theorem readByte_push16 (w : Addr) (s : State) (addr : Addr) :
    (push16 w s).readByte addr =
      if addr = stackAddr (s.sp - 1) then lowByte w
      else if addr = stackAddr s.sp then highByte w else s.readByte addr := by
  rw [push16, readByte_push8, readByte_push8, push8_sp]

/-- A 16-bit pop raises SP by 2 and changes nothing else (R156, R169). -/
theorem pop16_spec (s : State) : pop16 s = { s with sp := s.sp + 1 + 1 } := rfl

/-- The value a 16-bit pop returns: low byte at the lower address (R44, R156, R169). -/
theorem popped16_spec (s : State) : popped16 s =
    joinBytes (s.readByte (stackAddr (s.sp + 1))) (s.readByte (stackAddr (s.sp + 1 + 1))) := rfl

/-! ## Bytes of a 16-bit value -/

/-- `{hi, lo}` is 256 times `hi` plus `lo` (R62). -/
theorem joinBytes_toNat (lo hi : Byte) : (joinBytes lo hi).toNat = hi.toNat * 256 + lo.toNat := by
  have h1 := lo.isLt
  have h2 := hi.isLt
  simp only [joinBytes, BitVec.toNat_ofNat]
  omega

theorem lowByte_toNat (w : Addr) : (lowByte w).toNat = w.toNat % 256 := by
  simp [lowByte, BitVec.extractLsb'_toNat]

theorem highByte_toNat (w : Addr) : (highByte w).toNat = w.toNat / 256 := by
  have := w.isLt
  simp [highByte, BitVec.extractLsb'_toNat, Nat.shiftRight_eq_div_pow]
  omega

@[simp] theorem joinBytes_low_high (w : Addr) : joinBytes (lowByte w) (highByte w) = w := by
  apply BitVec.eq_of_toNat_eq
  rw [joinBytes_toNat, lowByte_toNat, highByte_toNat]
  omega

@[simp] theorem lowByte_joinBytes (lo hi : Byte) : lowByte (joinBytes lo hi) = lo := by
  have := lo.isLt
  apply BitVec.eq_of_toNat_eq
  rw [lowByte_toNat, joinBytes_toNat]
  omega

@[simp] theorem highByte_joinBytes (lo hi : Byte) : highByte (joinBytes lo hi) = hi := by
  have := lo.isLt
  apply BitVec.eq_of_toNat_eq
  rw [highByte_toNat, joinBytes_toNat]
  omega

/-- A 16-bit push then a 16-bit pop returns the value and restores SP (R155, R156). -/
theorem popped16_push16 (w : Addr) (s : State) :
    popped16 (push16 w s) = w ∧ (pop16 (push16 w s)).sp = s.sp := by
  have h1 : s.sp - 1 - 1 + 1 = s.sp - 1 := BitVec.sub_add_cancel _ _
  have h2 : s.sp - 1 + 1 = s.sp := BitVec.sub_add_cancel _ _
  have hsp : (push16 w s).sp = s.sp - 1 - 1 := rfl
  constructor
  · have hne : ¬ s.sp = s.sp - 1#8 := by
      intro h
      have := congrArg BitVec.toNat h
      have := s.sp.isLt
      simp [BitVec.toNat_sub] at *
      omega
    rw [popped16_spec, hsp, h1, h2]
    simp [readByte_push16, hne]
  · rw [pop16_spec]
    show s.sp - 1 - 1 + 1 + 1 = s.sp
    rw [h1, h2]

/-! ## Register moves, shifts and read-modify-writes -/

/-- Put a byte into A with its Z and N (R100, R167, R187, R188). -/
theorem moveToA_spec (v : Byte) (s : State) : moveToA v s = setZN v { s with a := v } := rfl

/-- Put a byte into X with its Z and N (R101, R135, R137, R185, R189). -/
theorem moveToX_spec (v : Byte) (s : State) : moveToX v s = setZN v { s with x := v } := rfl

/-- Put a byte into Y with its Z and N (R102, R136, R138, R186). -/
theorem moveToY_spec (v : Byte) (s : State) : moveToY v s = setZN v { s with y := v } := rfl

/-- A shift of the accumulator (R124). -/
theorem shiftA_spec (f : Byte → Bool → Shifted) (s : State) :
    shiftA f s = { setShiftFlags (f s.a (s.flag .c)) s with a := (f s.a (s.flag .c)).result } := rfl

/-- A shift of a memory cell: flags, and the result at the effective address (R124). -/
theorem shiftMem_spec (f : Byte → Bool → Shifted) (m : MemOperand) (s : State) :
    shiftMem f m s = State.writeByte (effAddr m s) (f (s.readByte (effAddr m s)) (s.flag .c)).result
      (setShiftFlags (f (s.readByte (effAddr m s)) (s.flag .c)) s) := rfl

/-- An increment or decrement of a memory cell (R133, R134). -/
theorem stepMem_spec (f : Byte → Byte) (m : MemOperand) (s : State) :
    stepMem f m s = setZN (f (s.readByte (effAddr m s)))
      (State.writeByte (effAddr m s) (f (s.readByte (effAddr m s))) s) := rfl

/-- What `BIT` does to every flag (R115). -/
theorem flag_testBits (o : Operand) (s : State) (f : Flag) : (testBits o s).flag f =
    if f = .v then (operandData o s).getLsbD 6
    else if f = .n then (operandData o s).getLsbD 7
    else if f = .z then isZero (s.a &&& operandData o s)
    else s.flag f := by
  cases f <;> simp [testBits]

/-- A branch changes PC or nothing (R145). -/
theorem branchIf_spec (f : Flag) (e : Bool) (rel8 : Byte) (s : State) :
    (s.flag f = e → branchIf f e rel8 s = { s with pc := branchTarget rel8 s }) ∧
    (s.flag f ≠ e → branchIf f e rel8 s = s) := by
  constructor <;> intro h <;> simp [branchIf, h, State.setPC]

/-! ## Call and return, and the status on the stack -/

/-- `JSR` as one record update: PC - 1 pushed, PC at the target (R155). -/
theorem callSubroutine_spec (target : Addr) (s : State) : callSubroutine target s = { s with
    mem := (push16 (s.pc - 1) s).mem, sp := s.sp - 1 - 1, pc := target } := rfl

/-- What a call leaves in memory: the two bytes of PC - 1 (R155). -/
theorem readByte_callSubroutine (target : Addr) (s : State) (addr : Addr) :
    (callSubroutine target s).readByte addr =
      if addr = stackAddr (s.sp - 1) then lowByte (s.pc - 1)
      else if addr = stackAddr s.sp then highByte (s.pc - 1) else s.readByte addr :=
  readByte_push16 (s.pc - 1) s addr

/-- `RTS` as one record update (R156). -/
theorem returnFromSubroutine_spec (s : State) : returnFromSubroutine s = { s with
    sp := s.sp + 1 + 1, pc := popped16 s + 1 } := rfl

/-- `PHP` as one record update: the stacked copy has B and U set, the live bits are cleared (R166). -/
theorem pushStatus_spec (s : State) : pushStatus s = { s with
    mem := s.mem.write (stackAddr s.sp).toNat (s.p ||| 0x30#8)
    sp := s.sp - 1
    p := putFlag .u false (putFlag .b false s.p) } := rfl

/-- What `PHP` leaves in memory (R166). -/
theorem readByte_pushStatus (s : State) (addr : Addr) : (pushStatus s).readByte addr =
    if addr = stackAddr s.sp then s.p ||| 0x30#8 else s.readByte addr :=
  readByte_push8 (s.p ||| 0x30#8) s addr

/-- The stacked copy of `PHP`, bit by bit (R166). -/
@[simp] theorem getFlag_or_breakUnused (f : Flag) (p : Byte) :
    getFlag f (p ||| 0x30#8) = if f = .b ∨ f = .u then true else getFlag f p := by
  cases f <;> simp [getFlag, Flag.position]

/-- `PLP` as one record update (R168). -/
theorem pullStatus_spec (s : State) : pullStatus s = { s with
    p := putFlag .u true (popped8 s), sp := s.sp + 1 } := rfl

/-! ## Interrupts -/

/-- The status an interrupt entry pushes: B clear, U set, the rest as it is (R206, R213). -/
@[simp] theorem getFlag_interruptStatus (f : Flag) (p : Byte) : getFlag f (interruptStatus p) =
    if f = .u then true else if f = .b then false else getFlag f p := by
  simp [interruptStatus]

/-- The status a return restores: B and U clear, the rest from the byte (R169). -/
@[simp] theorem getFlag_returnStatus (f : Flag) (p : Byte) : getFlag f (returnStatus p) =
    if f = .u then false else if f = .b then false else getFlag f p := by
  simp [returnStatus]

/-- An interrupt entry as one record update: the three-byte frame, SP lower by 3, I set, PC from the vector
as memory holds it after the pushes (R206, R207, R213). -/
theorem interruptEntry_spec (vector : Addr) (s : State) :
    interruptEntry vector s =
      let pushed := push8 (interruptStatus s.p) (push16 s.pc s)
      { pushed with
        p := putFlag .i true (interruptStatus s.p)
        pc := pushed.readWord vector } := rfl

section InterruptEntry
variable (vector : Addr) (s : State)

@[simp] theorem interruptEntry_a : (interruptEntry vector s).a = s.a := by rw [interruptEntry_spec]; rfl
@[simp] theorem interruptEntry_x : (interruptEntry vector s).x = s.x := by rw [interruptEntry_spec]; rfl
@[simp] theorem interruptEntry_y : (interruptEntry vector s).y = s.y := by rw [interruptEntry_spec]; rfl
@[simp] theorem interruptEntry_sp : (interruptEntry vector s).sp = s.sp - 1 - 1 - 1 := by
  rw [interruptEntry_spec]; rfl
@[simp] theorem interruptEntry_p :
    (interruptEntry vector s).p = putFlag .i true (interruptStatus s.p) := by rw [interruptEntry_spec]
@[simp] theorem interruptEntry_run : (interruptEntry vector s).run = s.run := by
  rw [interruptEntry_spec]; rfl
@[simp] theorem interruptEntry_inputs : (interruptEntry vector s).inputs = s.inputs := by
  rw [interruptEntry_spec]; rfl

/-- The frame an entry pushes: PC high, PC low, status, from the old SP down (R213). -/
theorem readByte_interruptEntry (addr : Addr) : (interruptEntry vector s).readByte addr =
    if addr = stackAddr (s.sp - 1 - 1) then interruptStatus s.p
    else if addr = stackAddr (s.sp - 1) then lowByte s.pc
    else if addr = stackAddr s.sp then highByte s.pc else s.readByte addr := by
  rw [interruptEntry_spec, ← readByte_push16]
  exact readByte_push8 (interruptStatus s.p) (push16 s.pc s) addr

/-- No byte of the frame lies at a vector, so PC is the word the vector held before the entry (R206). -/
theorem interruptEntry_pc (h : 512 ≤ vector.toNat) (h1 : 512 ≤ (vector + 1).toNat) :
    (interruptEntry vector s).pc = s.readWord vector := by
  have hne : ∀ addr : Addr, 512 ≤ addr.toNat → ∀ u : Byte, addr ≠ stackAddr u := by
    intro addr ha u he
    have := u.isLt
    have := congrArg BitVec.toNat he
    rw [stackAddr_toNat] at this
    omega
  have hkept : ∀ addr : Addr, 512 ≤ addr.toNat →
      (push8 (interruptStatus s.p) (push16 s.pc s)).readByte addr = s.readByte addr := by
    intro addr ha
    rw [readByte_push8, readByte_push16, if_neg (hne addr ha _), if_neg (hne addr ha _),
      if_neg (hne addr ha _)]
  rw [interruptEntry_spec, State.readWord, ← hkept vector h, ← hkept (vector + 1) h1]
  rfl

end InterruptEntry

/-- Return from interrupt as one record update (R169). -/
theorem interruptReturn_spec (s : State) :
    interruptReturn s = { s with
      p := returnStatus (popped8 s)
      sp := s.sp + 1 + 1 + 1
      pc := popped16 (pop8 s) } := rfl

/-- Reset as one record update: memory and the schedule are kept (R230, R231, R232). -/
theorem resetCore_spec (s : State) :
    resetCore s = { s with
      a := 0x00#8, x := 0x00#8, y := 0x00#8, sp := 0xFF#8
      pc := s.readWord Config.resetVector
      p := 0x20#8, run := .running } := by
  have h : putFlag .u true 0x00#8 = 0x20#8 := by decide
  rw [← h]
  rfl

/-- `State.reset` is what the reset sequence makes of zero-filled memory (R56, R230, R237). -/
theorem resetCore_zero_filled (s : State) (hm : s.mem = []) (hi : s.inputs = []) :
    resetCore s = State.reset := by
  rw [resetCore_spec, State.readWord, State.readByte, State.readByte, hm]
  simp only [Memory.read, hi, State.reset]
  rfl

end Sys2Proof.Machine
end

