-- ==== Sys2Proof/Laws/Exec.lean ====
section
/-! SUPPORT. What `exec` does, said once for an (operation, operand) pair: `effect` is the 56 operations over
any operand, and `exec_eq_effect` says that every one of the 151 arms is the effect of its own pair. A proof
about all forms of an operation starts from it and never splits on the arms again. -/

namespace Sys2Proof.Machine

/-- A store of `v` through an operand; an operand that is not in memory has no store (R103 to R105). -/
def storeAt (v : Byte) (o : Operand) (s : State) : State :=
  match o with
  | .mem m => State.writeByte (effAddr m s) v s
  | _ => s

/-- A shift of an operand: the accumulator form or a memory form (R124). -/
def shiftAt (f : Byte → Bool → Shifted) (o : Operand) (s : State) : State :=
  match o with
  | .implied => shiftA f s
  | .mem m => shiftMem f m s
  | _ => s

/-- An increment or decrement through an operand in memory (R133, R134). -/
def stepAt (f : Byte → Byte) (o : Operand) (s : State) : State :=
  match o with
  | .mem m => stepMem f m s
  | _ => s

/-- A branch through a relative operand (R145). -/
def branchAt (f : Flag) (expected : Bool) (o : Operand) (s : State) : State :=
  match o with
  | .relative rel8 => branchIf f expected rel8 s
  | _ => s

/-- A jump to the effective address (R154). -/
def jumpAt (o : Operand) (s : State) : State :=
  match o with
  | .mem m => s.setPC (effAddr m s)
  | _ => s

/-- A call of the effective address (R155). -/
def callAt (o : Operand) (s : State) : State :=
  match o with
  | .mem m => callSubroutine (effAddr m s) s
  | _ => s

/-- The effect of an operation on an operand (R100 to R196). -/
def effect (op : Mnemonic) (o : Operand) (s : State) : State :=
  match op with
  | .lda => moveToA (operandData o s) s
  | .ldx => moveToX (operandData o s) s
  | .ldy => moveToY (operandData o s) s
  | .sta => storeAt s.a o s
  | .stx => storeAt s.x o s
  | .sty => storeAt s.y o s
  | .adc => addToA (operandData o s) s
  | .sbc => addToA (complement (operandData o s)) s
  | .and => combineA andByte o s
  | .ora => combineA orByte o s
  | .eor => combineA xorByte o s
  | .bit => testBits o s
  | .asl => shiftAt shiftLeft o s
  | .lsr => shiftAt shiftRight o s
  | .rol => shiftAt rotateLeft o s
  | .ror => shiftAt rotateRight o s
  | .cmp => compareWith s.a (operandData o s) s
  | .cpx => compareWith s.x (operandData o s) s
  | .cpy => compareWith s.y (operandData o s) s
  | .inc => stepAt increment o s
  | .dec => stepAt decrement o s
  | .inx => moveToX (increment s.x) s
  | .iny => moveToY (increment s.y) s
  | .dex => moveToX (decrement s.x) s
  | .dey => moveToY (decrement s.y) s
  | .bcc => branchAt .c false o s
  | .bcs => branchAt .c true o s
  | .beq => branchAt .z true o s
  | .bne => branchAt .z false o s
  | .bmi => branchAt .n true o s
  | .bpl => branchAt .n false o s
  | .bvc => branchAt .v false o s
  | .bvs => branchAt .v true o s
  | .jmp => jumpAt o s
  | .jsr => callAt o s
  | .rts => returnFromSubroutine s
  | .pha => push8 s.a s
  | .php => pushStatus s
  | .pla => moveToA (popped8 s) (pop8 s)
  | .plp => pullStatus s
  | .rti => interruptReturn s
  | .clc => s.setFlag .c false
  | .sec => s.setFlag .c true
  | .cld => s.setFlag .d false
  | .sed => s.setFlag .d true
  | .cli => s.setFlag .i false
  | .sei => s.setFlag .i true
  | .clv => s.setFlag .v false
  | .tax => moveToX s.a s
  | .tay => moveToY s.a s
  | .txa => moveToA s.x s
  | .tya => moveToA s.y s
  | .tsx => moveToX s.sp s
  | .txs => s.setSP s.x
  | .brk => s.setRun .halted
  | .nop => s

/-- Every arm of `exec` is the effect of its (operation, operand) pair (R63, R70). -/
theorem exec_eq_effect (i : Instr) (s : State) : exec i s = .next (effect i.mnemonic i.operand s) := by
  cases i <;> rfl

/-- A next state of an instruction is the effect of its pair. -/
theorem eq_effect_of_exec (i : Instr) (s t : State) (h : exec i s = .next t) :
    t = effect i.mnemonic i.operand s := by
  rw [exec_eq_effect] at h
  injection h with h
  exact h.symm

/-! ## Which operands an operation has (R70) -/

/-- Stores, increments, decrements and BIT have an operand in memory (R103 to R105, R115, R133, R134). -/
theorem operand_mem (i : Instr)
    (h : i.mnemonic ∈ [.sta, .stx, .sty, .inc, .dec, .bit, .jmp, .jsr]) : ∃ m, i.operand = .mem m := by
  cases i <;> first | exact ⟨_, rfl⟩ | (exfalso; revert h; dsimp only [Instr.mnemonic, Instr.descriptor]; decide)

/-- Shifts and rotates have the accumulator or an operand in memory (R124). -/
theorem operand_shift (i : Instr) (h : i.mnemonic ∈ [.asl, .lsr, .rol, .ror]) :
    i.operand = .implied ∨ ∃ m, i.operand = .mem m := by
  cases i <;>
    first
    | exact .inl rfl
    | exact .inr ⟨_, rfl⟩
    | (exfalso; revert h; dsimp only [Instr.mnemonic, Instr.descriptor]; decide)

/-- Branches have a displacement (R145). -/
theorem operand_branch (i : Instr)
    (h : i.mnemonic ∈ [.bcc, .bcs, .beq, .bne, .bmi, .bpl, .bvc, .bvs]) : ∃ b, i.operand = .relative b := by
  cases i <;> first | exact ⟨_, rfl⟩ | (exfalso; revert h; dsimp only [Instr.mnemonic, Instr.descriptor]; decide)

/-! ## Frames of `effect` -/

/-- Only BRK changes the run state, and no instruction touches the environment's schedule (R25, R195). -/
theorem effect_session (m : Mnemonic) (o : Operand) (s : State) (h : m ≠ .brk) :
    (effect m o s).run = s.run ∧ (effect m o s).inputs = s.inputs := by
  have hb : ∀ f e b, (branchIf f e b s).run = s.run ∧ (branchIf f e b s).inputs = s.inputs := by
    intro f e b; unfold branchIf; split <;> exact ⟨rfl, rfl⟩
  have hbo : ∀ f e, (branchAt f e o s).run = s.run ∧ (branchAt f e o s).inputs = s.inputs := by
    intro f e; cases o <;> first | exact hb _ _ _ | exact ⟨rfl, rfl⟩
  have hst : ∀ v, (storeAt v o s).run = s.run ∧ (storeAt v o s).inputs = s.inputs := by
    intro v; cases o <;> exact ⟨rfl, rfl⟩
  have hsh : ∀ f, (shiftAt f o s).run = s.run ∧ (shiftAt f o s).inputs = s.inputs := by
    intro v; cases o <;> exact ⟨rfl, rfl⟩
  have hsp : ∀ f, (stepAt f o s).run = s.run ∧ (stepAt f o s).inputs = s.inputs := by
    intro v; cases o <;> exact ⟨rfl, rfl⟩
  have hj : (jumpAt o s).run = s.run ∧ (jumpAt o s).inputs = s.inputs := by
    cases o <;> exact ⟨rfl, rfl⟩
  have hc : (callAt o s).run = s.run ∧ (callAt o s).inputs = s.inputs := by
    cases o <;> exact ⟨rfl, rfl⟩
  cases m
  case brk => exact absurd rfl h
  case bcc | bcs | beq | bne | bmi | bpl | bvc | bvs => exact hbo _ _
  case sta | stx | sty => exact hst _
  case asl | lsr | rol | ror => exact hsh _
  case inc | dec => exact hsp _
  case jmp => exact hj
  case jsr => exact hc
  all_goals exact ⟨rfl, rfl⟩

/-- The sentinel is the only instruction of its operation (R195). -/
theorem eq_brk (i : Instr) (h : i.mnemonic = .brk) : i = .brk := by
  cases i <;> first | rfl | (exfalso; revert h; dsimp only [Instr.mnemonic, Instr.descriptor]; decide)

end Sys2Proof.Machine
end

