-- ==== Sys2Proof/Laws/PerInstr.lean ====
section
/-! SUPPORT. A statement made of every instruction as syntax, one lemma per constructor: the instruction is
well formed, and its bytes are the opcode and the operand bytes its mode consumes (R60, R61, R70). -/

namespace Sys2Proof.Laws.EncodingShape

/-- Well formed, and as long as its mode says, with a table entry at its opcode (R60, R61, R63, R70). -/
def Statement (i : Instr) : Prop :=
  i.wf = true ∧ (encode i).length = 1 + i.operand.mode.operandBytes ∧ (formOf i.opcode).isSome = true

/-- The statement from the laws of the decoder. -/
theorem of_laws (i : Instr) : Statement i := by
  refine ⟨i.wf_eq_true, i.length_eq, ?_⟩
  obtain ⟨f, h, _⟩ := formOf_opcode i
  rw [h]
  rfl

theorem ldaImm (imm8 : Byte) : Statement (.ldaImm imm8) := of_laws _
theorem ldaZp (zp8 : Byte) : Statement (.ldaZp zp8) := of_laws _
theorem ldaZpx (zp8 : Byte) : Statement (.ldaZpx zp8) := of_laws _
theorem ldaAbs (addr16 : Addr) : Statement (.ldaAbs addr16) := of_laws _
theorem ldaAbx (base16 : Addr) : Statement (.ldaAbx base16) := of_laws _
theorem ldaAby (base16 : Addr) : Statement (.ldaAby base16) := of_laws _
theorem ldaIzx (zp8 : Byte) : Statement (.ldaIzx zp8) := of_laws _
theorem ldaIzy (zp8 : Byte) : Statement (.ldaIzy zp8) := of_laws _
theorem ldxImm (imm8 : Byte) : Statement (.ldxImm imm8) := of_laws _
theorem ldxZp (zp8 : Byte) : Statement (.ldxZp zp8) := of_laws _
theorem ldxZpy (zp8 : Byte) : Statement (.ldxZpy zp8) := of_laws _
theorem ldxAbs (addr16 : Addr) : Statement (.ldxAbs addr16) := of_laws _
theorem ldxAby (base16 : Addr) : Statement (.ldxAby base16) := of_laws _
theorem ldyImm (imm8 : Byte) : Statement (.ldyImm imm8) := of_laws _
theorem ldyZp (zp8 : Byte) : Statement (.ldyZp zp8) := of_laws _
theorem ldyZpx (zp8 : Byte) : Statement (.ldyZpx zp8) := of_laws _
theorem ldyAbs (addr16 : Addr) : Statement (.ldyAbs addr16) := of_laws _
theorem ldyAbx (base16 : Addr) : Statement (.ldyAbx base16) := of_laws _
theorem staZp (zp8 : Byte) : Statement (.staZp zp8) := of_laws _
theorem staZpx (zp8 : Byte) : Statement (.staZpx zp8) := of_laws _
theorem staAbs (addr16 : Addr) : Statement (.staAbs addr16) := of_laws _
theorem staAbx (base16 : Addr) : Statement (.staAbx base16) := of_laws _
theorem staAby (base16 : Addr) : Statement (.staAby base16) := of_laws _
theorem staIzx (zp8 : Byte) : Statement (.staIzx zp8) := of_laws _
theorem staIzy (zp8 : Byte) : Statement (.staIzy zp8) := of_laws _
theorem stxZp (zp8 : Byte) : Statement (.stxZp zp8) := of_laws _
theorem stxZpy (zp8 : Byte) : Statement (.stxZpy zp8) := of_laws _
theorem stxAbs (addr16 : Addr) : Statement (.stxAbs addr16) := of_laws _
theorem styZp (zp8 : Byte) : Statement (.styZp zp8) := of_laws _
theorem styZpx (zp8 : Byte) : Statement (.styZpx zp8) := of_laws _
theorem styAbs (addr16 : Addr) : Statement (.styAbs addr16) := of_laws _
theorem adcImm (imm8 : Byte) : Statement (.adcImm imm8) := of_laws _
theorem adcZp (zp8 : Byte) : Statement (.adcZp zp8) := of_laws _
theorem adcZpx (zp8 : Byte) : Statement (.adcZpx zp8) := of_laws _
theorem adcAbs (addr16 : Addr) : Statement (.adcAbs addr16) := of_laws _
theorem adcAbx (base16 : Addr) : Statement (.adcAbx base16) := of_laws _
theorem adcAby (base16 : Addr) : Statement (.adcAby base16) := of_laws _
theorem adcIzx (zp8 : Byte) : Statement (.adcIzx zp8) := of_laws _
theorem adcIzy (zp8 : Byte) : Statement (.adcIzy zp8) := of_laws _
theorem sbcImm (imm8 : Byte) : Statement (.sbcImm imm8) := of_laws _
theorem sbcZp (zp8 : Byte) : Statement (.sbcZp zp8) := of_laws _
theorem sbcZpx (zp8 : Byte) : Statement (.sbcZpx zp8) := of_laws _
theorem sbcAbs (addr16 : Addr) : Statement (.sbcAbs addr16) := of_laws _
theorem sbcAbx (base16 : Addr) : Statement (.sbcAbx base16) := of_laws _
theorem sbcAby (base16 : Addr) : Statement (.sbcAby base16) := of_laws _
theorem sbcIzx (zp8 : Byte) : Statement (.sbcIzx zp8) := of_laws _
theorem sbcIzy (zp8 : Byte) : Statement (.sbcIzy zp8) := of_laws _
theorem andImm (imm8 : Byte) : Statement (.andImm imm8) := of_laws _
theorem andZp (zp8 : Byte) : Statement (.andZp zp8) := of_laws _
theorem andZpx (zp8 : Byte) : Statement (.andZpx zp8) := of_laws _
theorem andAbs (addr16 : Addr) : Statement (.andAbs addr16) := of_laws _
theorem andAbx (base16 : Addr) : Statement (.andAbx base16) := of_laws _
theorem andAby (base16 : Addr) : Statement (.andAby base16) := of_laws _
theorem andIzx (zp8 : Byte) : Statement (.andIzx zp8) := of_laws _
theorem andIzy (zp8 : Byte) : Statement (.andIzy zp8) := of_laws _
theorem oraImm (imm8 : Byte) : Statement (.oraImm imm8) := of_laws _
theorem oraZp (zp8 : Byte) : Statement (.oraZp zp8) := of_laws _
theorem oraZpx (zp8 : Byte) : Statement (.oraZpx zp8) := of_laws _
theorem oraAbs (addr16 : Addr) : Statement (.oraAbs addr16) := of_laws _
theorem oraAbx (base16 : Addr) : Statement (.oraAbx base16) := of_laws _
theorem oraAby (base16 : Addr) : Statement (.oraAby base16) := of_laws _
theorem oraIzx (zp8 : Byte) : Statement (.oraIzx zp8) := of_laws _
theorem oraIzy (zp8 : Byte) : Statement (.oraIzy zp8) := of_laws _
theorem eorImm (imm8 : Byte) : Statement (.eorImm imm8) := of_laws _
theorem eorZp (zp8 : Byte) : Statement (.eorZp zp8) := of_laws _
theorem eorZpx (zp8 : Byte) : Statement (.eorZpx zp8) := of_laws _
theorem eorAbs (addr16 : Addr) : Statement (.eorAbs addr16) := of_laws _
theorem eorAbx (base16 : Addr) : Statement (.eorAbx base16) := of_laws _
theorem eorAby (base16 : Addr) : Statement (.eorAby base16) := of_laws _
theorem eorIzx (zp8 : Byte) : Statement (.eorIzx zp8) := of_laws _
theorem eorIzy (zp8 : Byte) : Statement (.eorIzy zp8) := of_laws _
theorem bitZp (zp8 : Byte) : Statement (.bitZp zp8) := of_laws _
theorem bitAbs (addr16 : Addr) : Statement (.bitAbs addr16) := of_laws _
theorem aslAcc : Statement .aslAcc := of_laws _
theorem aslZp (zp8 : Byte) : Statement (.aslZp zp8) := of_laws _
theorem aslZpx (zp8 : Byte) : Statement (.aslZpx zp8) := of_laws _
theorem aslAbs (addr16 : Addr) : Statement (.aslAbs addr16) := of_laws _
theorem aslAbx (base16 : Addr) : Statement (.aslAbx base16) := of_laws _
theorem lsrAcc : Statement .lsrAcc := of_laws _
theorem lsrZp (zp8 : Byte) : Statement (.lsrZp zp8) := of_laws _
theorem lsrZpx (zp8 : Byte) : Statement (.lsrZpx zp8) := of_laws _
theorem lsrAbs (addr16 : Addr) : Statement (.lsrAbs addr16) := of_laws _
theorem lsrAbx (base16 : Addr) : Statement (.lsrAbx base16) := of_laws _
theorem rolAcc : Statement .rolAcc := of_laws _
theorem rolZp (zp8 : Byte) : Statement (.rolZp zp8) := of_laws _
theorem rolZpx (zp8 : Byte) : Statement (.rolZpx zp8) := of_laws _
theorem rolAbs (addr16 : Addr) : Statement (.rolAbs addr16) := of_laws _
theorem rolAbx (base16 : Addr) : Statement (.rolAbx base16) := of_laws _
theorem rorAcc : Statement .rorAcc := of_laws _
theorem rorZp (zp8 : Byte) : Statement (.rorZp zp8) := of_laws _
theorem rorZpx (zp8 : Byte) : Statement (.rorZpx zp8) := of_laws _
theorem rorAbs (addr16 : Addr) : Statement (.rorAbs addr16) := of_laws _
theorem rorAbx (base16 : Addr) : Statement (.rorAbx base16) := of_laws _
theorem cmpImm (imm8 : Byte) : Statement (.cmpImm imm8) := of_laws _
theorem cmpZp (zp8 : Byte) : Statement (.cmpZp zp8) := of_laws _
theorem cmpZpx (zp8 : Byte) : Statement (.cmpZpx zp8) := of_laws _
theorem cmpAbs (addr16 : Addr) : Statement (.cmpAbs addr16) := of_laws _
theorem cmpAbx (base16 : Addr) : Statement (.cmpAbx base16) := of_laws _
theorem cmpAby (base16 : Addr) : Statement (.cmpAby base16) := of_laws _
theorem cmpIzx (zp8 : Byte) : Statement (.cmpIzx zp8) := of_laws _
theorem cmpIzy (zp8 : Byte) : Statement (.cmpIzy zp8) := of_laws _
theorem cpxImm (imm8 : Byte) : Statement (.cpxImm imm8) := of_laws _
theorem cpxZp (zp8 : Byte) : Statement (.cpxZp zp8) := of_laws _
theorem cpxAbs (addr16 : Addr) : Statement (.cpxAbs addr16) := of_laws _
theorem cpyImm (imm8 : Byte) : Statement (.cpyImm imm8) := of_laws _
theorem cpyZp (zp8 : Byte) : Statement (.cpyZp zp8) := of_laws _
theorem cpyAbs (addr16 : Addr) : Statement (.cpyAbs addr16) := of_laws _
theorem incZp (zp8 : Byte) : Statement (.incZp zp8) := of_laws _
theorem incZpx (zp8 : Byte) : Statement (.incZpx zp8) := of_laws _
theorem incAbs (addr16 : Addr) : Statement (.incAbs addr16) := of_laws _
theorem incAbx (base16 : Addr) : Statement (.incAbx base16) := of_laws _
theorem decZp (zp8 : Byte) : Statement (.decZp zp8) := of_laws _
theorem decZpx (zp8 : Byte) : Statement (.decZpx zp8) := of_laws _
theorem decAbs (addr16 : Addr) : Statement (.decAbs addr16) := of_laws _
theorem decAbx (base16 : Addr) : Statement (.decAbx base16) := of_laws _
theorem inx : Statement .inx := of_laws _
theorem iny : Statement .iny := of_laws _
theorem dex : Statement .dex := of_laws _
theorem dey : Statement .dey := of_laws _
theorem bcc (rel8 : Byte) : Statement (.bcc rel8) := of_laws _
theorem bcs (rel8 : Byte) : Statement (.bcs rel8) := of_laws _
theorem beq (rel8 : Byte) : Statement (.beq rel8) := of_laws _
theorem bne (rel8 : Byte) : Statement (.bne rel8) := of_laws _
theorem bmi (rel8 : Byte) : Statement (.bmi rel8) := of_laws _
theorem bpl (rel8 : Byte) : Statement (.bpl rel8) := of_laws _
theorem bvc (rel8 : Byte) : Statement (.bvc rel8) := of_laws _
theorem bvs (rel8 : Byte) : Statement (.bvs rel8) := of_laws _
theorem jmpAbs (addr16 : Addr) : Statement (.jmpAbs addr16) := of_laws _
theorem jmpInd (ptr16 : Addr) : Statement (.jmpInd ptr16) := of_laws _
theorem jsr (addr16 : Addr) : Statement (.jsr addr16) := of_laws _
theorem rts : Statement .rts := of_laws _
theorem pha : Statement .pha := of_laws _
theorem php : Statement .php := of_laws _
theorem pla : Statement .pla := of_laws _
theorem plp : Statement .plp := of_laws _
theorem rti : Statement .rti := of_laws _
theorem clc : Statement .clc := of_laws _
theorem sec : Statement .sec := of_laws _
theorem cld : Statement .cld := of_laws _
theorem sed : Statement .sed := of_laws _
theorem cli : Statement .cli := of_laws _
theorem sei : Statement .sei := of_laws _
theorem clv : Statement .clv := of_laws _
theorem tax : Statement .tax := of_laws _
theorem tay : Statement .tay := of_laws _
theorem txa : Statement .txa := of_laws _
theorem tya : Statement .tya := of_laws _
theorem tsx : Statement .tsx := of_laws _
theorem txs : Statement .txs := of_laws _
theorem brk : Statement .brk := of_laws _
theorem nop : Statement .nop := of_laws _

end Sys2Proof.Laws.EncodingShape
end

