-- ==== Sys2Proof/Laws/Step.lean ====
section
/-! SUPPORT. Everything a step can do, said once (R80, R205 to R212, R230, R55): the instruction step by its
three cases, a step by the environment's next action, and the inversion lemma later proofs start from. -/

namespace Sys2Proof.Machine

/-! ## The instruction step (R80) -/

/-- Outside `Running` nothing changes (R25, R80). -/
theorem instructionStep_stopped (execute : Instr → State → Result) (s : State) (h : s.run ≠ .running) :
    instructionStep execute s = .next s := by
  cases hr : s.run with
  | running => exact absurd hr h
  | halted => simp only [instructionStep, hr]
  | faulted f => simp only [instructionStep, hr]

/-- A decodable instruction runs with PC past it (R80, R97). -/
theorem instructionStep_decoded (execute : Instr → State → Result) (s : State) (i : Instr)
    (rest : List Byte) (hr : s.run = .running) (hd : decode (fetchBytes s) = .ok (i, rest)) :
    instructionStep execute s = execute i (pastInstr i s) := by
  simp only [instructionStep, hr, hd]

/-- The fetch decodes exactly when the opcode byte has a table entry (R60, R65). -/
theorem decode_fetch_error (s : State) (e : DecodeError) (h : decode (fetchBytes s) = .error e) :
    formOf (s.readByte s.pc) = none := by
  unfold fetchBytes at h
  rw [decode_three] at h
  cases hf : formOf (s.readByte s.pc) with
  | none => rfl
  | some f => rw [hf] at h; cases f <;> cases h

/-- An opcode byte with no table entry faults and changes nothing else (R201). -/
theorem instructionStep_illegal (execute : Instr → State → Result) (s : State) (hr : s.run = .running)
    (hf : formOf (s.readByte s.pc) = none) :
    instructionStep execute s =
      .next (raiseFault (.illegalOpcode (s.readByte s.pc) s.pc) s) := by
  have hd : decode (fetchBytes s) = .error (.illegalOpcode (s.readByte s.pc)) := by
    unfold fetchBytes
    rw [decode_three, hf]
  simp only [instructionStep, hr, hd]

/-! ## A step by the environment's next action (R2) -/

theorem step_of_stepDue (s : State) (rest : List Event) (h : StepDue s rest) :
    step s = instructionStep exec (s.setInputs rest) := by
  rcases h with h | ⟨h, rfl⟩
  · simp only [step, sessionStep, h, handleEvent]
  · have : s = s.setInputs [] := by rw [← h]; rfl
    rw [← this]
    simp only [step, sessionStep, h, handleEvent]

theorem step_of_irq (s : State) (rest : List Event) (h : s.inputs = .irq :: rest) :
    step s = .next (offerIrq (s.setInputs rest)) := by
  simp only [step, sessionStep, h, handleEvent]

theorem step_of_nmi (s : State) (rest : List Event) (h : s.inputs = .nmi :: rest) :
    step s = .next (offerNmi (s.setInputs rest)) := by
  simp only [step, sessionStep, h, handleEvent]

theorem step_of_reset (s : State) (rest : List Event) (h : s.inputs = .reset :: rest) :
    step s = .next (resetCore (s.setInputs rest)) := by
  simp only [step, sessionStep, h, handleEvent]

theorem step_of_write (s : State) (rest : List Event) (a : Addr) (v : Byte)
    (h : s.inputs = .write a v :: rest) :
    step s = .next (State.writeByte a v (s.setInputs rest)) := by
  simp only [step, sessionStep, h, handleEvent]

/-- What is due at a boundary: a step of the core, or one of the other actions of the environment. -/
theorem due_cases (s : State) : (∃ rest, StepDue s rest) ∨ ∃ rest,
    s.inputs = .irq :: rest ∨ s.inputs = .nmi :: rest ∨ s.inputs = .reset :: rest ∨
      ∃ a v, s.inputs = .write a v :: rest := by
  cases h : s.inputs with
  | nil => exact .inl ⟨[], .inr ⟨h, rfl⟩⟩
  | cons e rest =>
    cases e with
    | step => exact .inl ⟨rest, .inl h⟩
    | irq => exact .inr ⟨rest, .inl rfl⟩
    | nmi => exact .inr ⟨rest, .inr (.inl rfl)⟩
    | reset => exact .inr ⟨rest, .inr (.inr (.inl rfl))⟩
    | write a v => exact .inr ⟨rest, .inr (.inr (.inr ⟨a, v, rfl⟩))⟩

/-- Everything an instruction step can do (R80): nothing outside `Running`, the decoded instruction, or the
fault of an illegal opcode. -/
theorem instructionStep_cases (s t : State) (h : instructionStep exec s = .next t) :
    (s.run ≠ .running ∧ t = s) ∨
    (s.run = .running ∧ ∃ i rest, decode (fetchBytes s) = .ok (i, rest) ∧
      exec i (pastInstr i s) = .next t) ∨
    (s.run = .running ∧ formOf (s.readByte s.pc) = none ∧
      t = raiseFault (.illegalOpcode (s.readByte s.pc) s.pc) s) := by
  by_cases hr : s.run = .running
  · cases hd : decode (fetchBytes s) with
    | ok p =>
      obtain ⟨i, rest⟩ := p
      rw [instructionStep_decoded exec s i rest hr hd] at h
      exact .inr (.inl ⟨hr, i, rest, rfl, h⟩)
    | error e =>
      have hf := decode_fetch_error s e hd
      rw [instructionStep_illegal exec s hr hf] at h
      injection h with h
      exact .inr (.inr ⟨hr, hf, h.symm⟩)
  · rw [instructionStep_stopped exec s hr] at h
    injection h with h
    exact .inl ⟨hr, h.symm⟩

/-- Everything a step can do: the inversion lemma (R2, R80, R205, R230, R55). -/
theorem step_cases (s t : State) (h : step s = .next t) :
    (∃ rest, StepDue s rest ∧ instructionStep exec (s.setInputs rest) = .next t) ∨
    (∃ rest, s.inputs = .irq :: rest ∧ t = offerIrq (s.setInputs rest)) ∨
    (∃ rest, s.inputs = .nmi :: rest ∧ t = offerNmi (s.setInputs rest)) ∨
    (∃ rest, s.inputs = .reset :: rest ∧ t = resetCore (s.setInputs rest)) ∨
    (∃ rest a v, s.inputs = .write a v :: rest ∧ t = State.writeByte a v (s.setInputs rest)) := by
  rcases due_cases s with ⟨rest, hd⟩ | ⟨rest, hd | hd | hd | ⟨a, v, hd⟩⟩
  · rw [step_of_stepDue s rest hd] at h
    exact .inl ⟨rest, hd, h⟩
  · rw [step_of_irq s rest hd] at h
    injection h with h
    exact .inr (.inl ⟨rest, hd, h.symm⟩)
  · rw [step_of_nmi s rest hd] at h
    injection h with h
    exact .inr (.inr (.inl ⟨rest, hd, h.symm⟩))
  · rw [step_of_reset s rest hd] at h
    injection h with h
    exact .inr (.inr (.inr (.inl ⟨rest, hd, h.symm⟩)))
  · rw [step_of_write s rest a v hd] at h
    injection h with h
    exact .inr (.inr (.inr (.inr ⟨rest, a, v, hd, h.symm⟩)))

/-! ## Packaging: an invariant of every step is an invariant of every reachable state -/

/-- What every step keeps holds of every state reached (R245). -/
theorem reaches_induction (P : State → Prop) (hstep : ∀ s t, P s → step s = .next t → P t)
    (s t : State) (h : Reaches s t) (hs : P s) : P t := by
  induction h with
  | refl => exact hs
  | tail _ hst ih => exact hstep _ _ ih hst

end Sys2Proof.Machine
end

