-- ==== Sys2Proof/Laws/Run.lean ====
section
/-! SUPPORT. `run()` with fuel, said once (R218, R245, D32): a stopped state ends a run at once, a running one
takes a step or is out of fuel; a result is the snapshot and the dump of the final state. -/

namespace Sys2Proof.Machine

/-! ## The end a state has reached -/

theorem runEnd_running (s : State) (h : s.run = .running) : s.runEnd = none := by
  simp only [State.runEnd, h]

theorem runEnd_halted (s : State) (h : s.run = .halted) : s.runEnd = some (.halted s) := by
  simp only [State.runEnd, h]

theorem runEnd_faulted (s : State) (f : Fault) (h : s.run = .faulted f) :
    s.runEnd = some (.faulted f s) := by
  simp only [State.runEnd, h]

@[simp] theorem result_halted (t : State) : (RunEnd.halted t).result = some ⟨t.snapshot, t.dump⟩ := rfl
@[simp] theorem result_faulted (f : Fault) (t : State) :
    (RunEnd.faulted f t).result = some ⟨t.snapshot, t.dump⟩ := rfl
@[simp] theorem result_outOfFuel (t : State) : (RunEnd.outOfFuel t).result = none := rfl

/-! ## The loop -/

/-- Whatever the fuel, a run stops where the state has reached an end (R218). -/
theorem runWithFuel_ended (fuel : Nat) (s : State) (e : RunEnd) (h : s.runEnd = some e) :
    runWithFuel fuel s = .next e := by
  cases fuel with
  | zero => simp only [runWithFuel, h, Option.getD_some]
  | succ n => simp only [runWithFuel, h]

/-- Without fuel a running core is out of fuel (D32). -/
theorem runWithFuel_zero (s : State) (h : s.run = .running) : runWithFuel 0 s = .next (.outOfFuel s) := by
  simp only [runWithFuel, runEnd_running s h, Option.getD_none]

/-- With fuel a running core takes a step, and the run goes on from there (R218). -/
theorem runWithFuel_succ (fuel : Nat) (s t : State) (h : s.run = .running) (hs : step s = .next t) :
    runWithFuel (fuel + 1) s = runWithFuel fuel t := by
  simp only [runWithFuel, runEnd_running s h, hs]

/-! ## The dump -/

/-- The dump has a byte for every address (R31, R55). -/
theorem dump_length (s : State) : s.dump.length = 65536 := by
  simp only [State.dump, List.length_map, List.length_range, Config.memorySize]

/-- The byte of the dump at an address is what a read of that address gives (R31, R55). -/
theorem dump_at (s : State) (a : Addr) : s.dump[a.toNat]? = some (s.readByte a) := by
  have h : a.toNat < Config.memorySize := a.isLt
  simp only [State.dump, List.getElem?_map, List.getElem?_range h, Option.map_some, State.readByte]

end Sys2Proof.Machine
end

