-- ==== Sys2Proof/Tests/Slice0.lean ====
section
/-! SUPPORT. Tests: the well-formedness checks refuse ill-formed terms, every constructor's word decodes, single
steps give what the spec's test vectors say, and a witness for every statement's hypotheses. The expected
results are those of 95_test_vectors.md and of the examples in the rules; none comes from the model. -/

namespace Sys2Proof.Tests

open Sys2Proof Sys2Proof.Machine

/-! ## Well-formedness (R61, R70) -/

/-- STA has no immediate form (R103; 0x89 is illegal): check 1 refuses, check 2 does not. -/
theorem test_wf_refuses_illegal_pair :
    (RawInstr.mk .sta .immediate [0x05#8]).legalPair = false ∧
    (RawInstr.mk .sta .immediate [0x05#8]).operandCount = true ∧
    (RawInstr.mk .sta .immediate [0x05#8]).wf = false := by decide

/-- An absolute operand is two bytes (R61): check 2 refuses one and three, check 1 does not. -/
theorem test_wf_refuses_operand_count :
    (RawInstr.mk .lda .absolute [0x34#8]).legalPair = true ∧
    (RawInstr.mk .lda .absolute [0x34#8]).operandCount = false ∧
    (RawInstr.mk .lda .absolute [0x34#8]).wf = false ∧
    (RawInstr.mk .lda .absolute [0x34#8, 0x12#8, 0x00#8]).wf = false ∧
    (RawInstr.mk .nop .implied [0x00#8]).wf = false := by decide

/-- The same with the right bytes is accepted. -/
theorem test_wf_accepts :
    (RawInstr.mk .lda .absolute [0x34#8, 0x12#8]).wf = true ∧ (RawInstr.mk .nop .implied []).wf = true := by
  decide

/-! ## Decoding: every constructor, from a word written out of opcode_table.json's encodings (R63)

A word is (bits, value): the opcode is the low byte; a one-byte operand is 0x95, a two-byte operand has low
byte 0x34 and high byte 0x92. -/

/-- Every word of the list decodes to the instruction beside it. -/
def decodesAll (ws : List (Nat × Nat × Instr)) : Bool :=
  ws.all (fun w => decodeTableWord w.1 w.2.1 == some w.2.2)

theorem test_decode_loads :
    (decodesAll [
      (16, 0b10010101_10101001, .ldaImm 0x95#8),
      (16, 0b10010101_10100101, .ldaZp 0x95#8),
      (16, 0b10010101_10110101, .ldaZpx 0x95#8),
      (24, 0b10010010_00110100_10101101, .ldaAbs 0x9234#16)] &&
    decodesAll [
      (24, 0b10010010_00110100_10111101, .ldaAbx 0x9234#16),
      (24, 0b10010010_00110100_10111001, .ldaAby 0x9234#16),
      (16, 0b10010101_10100001, .ldaIzx 0x95#8),
      (16, 0b10010101_10110001, .ldaIzy 0x95#8)] &&
    decodesAll [
      (16, 0b10010101_10100010, .ldxImm 0x95#8),
      (16, 0b10010101_10100110, .ldxZp 0x95#8),
      (16, 0b10010101_10110110, .ldxZpy 0x95#8),
      (24, 0b10010010_00110100_10101110, .ldxAbs 0x9234#16)] &&
    decodesAll [
      (24, 0b10010010_00110100_10111110, .ldxAby 0x9234#16),
      (16, 0b10010101_10100000, .ldyImm 0x95#8),
      (16, 0b10010101_10100100, .ldyZp 0x95#8),
      (16, 0b10010101_10110100, .ldyZpx 0x95#8)] &&
    decodesAll [
      (24, 0b10010010_00110100_10101100, .ldyAbs 0x9234#16),
      (24, 0b10010010_00110100_10111100, .ldyAbx 0x9234#16)]) = true := by decide

theorem test_decode_stores :
    (decodesAll [
      (16, 0b10010101_10000101, .staZp 0x95#8),
      (16, 0b10010101_10010101, .staZpx 0x95#8),
      (24, 0b10010010_00110100_10001101, .staAbs 0x9234#16),
      (24, 0b10010010_00110100_10011101, .staAbx 0x9234#16)] &&
    decodesAll [
      (24, 0b10010010_00110100_10011001, .staAby 0x9234#16),
      (16, 0b10010101_10000001, .staIzx 0x95#8),
      (16, 0b10010101_10010001, .staIzy 0x95#8),
      (16, 0b10010101_10000110, .stxZp 0x95#8)] &&
    decodesAll [
      (16, 0b10010101_10010110, .stxZpy 0x95#8),
      (24, 0b10010010_00110100_10001110, .stxAbs 0x9234#16),
      (16, 0b10010101_10000100, .styZp 0x95#8),
      (16, 0b10010101_10010100, .styZpx 0x95#8)] &&
    decodesAll [
      (24, 0b10010010_00110100_10001100, .styAbs 0x9234#16)]) = true := by decide

theorem test_decode_adc_sbc :
    (decodesAll [
      (16, 0b10010101_01101001, .adcImm 0x95#8),
      (16, 0b10010101_01100101, .adcZp 0x95#8),
      (16, 0b10010101_01110101, .adcZpx 0x95#8),
      (24, 0b10010010_00110100_01101101, .adcAbs 0x9234#16)] &&
    decodesAll [
      (24, 0b10010010_00110100_01111101, .adcAbx 0x9234#16),
      (24, 0b10010010_00110100_01111001, .adcAby 0x9234#16),
      (16, 0b10010101_01100001, .adcIzx 0x95#8),
      (16, 0b10010101_01110001, .adcIzy 0x95#8)] &&
    decodesAll [
      (16, 0b10010101_11101001, .sbcImm 0x95#8),
      (16, 0b10010101_11100101, .sbcZp 0x95#8),
      (16, 0b10010101_11110101, .sbcZpx 0x95#8),
      (24, 0b10010010_00110100_11101101, .sbcAbs 0x9234#16)] &&
    decodesAll [
      (24, 0b10010010_00110100_11111101, .sbcAbx 0x9234#16),
      (24, 0b10010010_00110100_11111001, .sbcAby 0x9234#16),
      (16, 0b10010101_11100001, .sbcIzx 0x95#8),
      (16, 0b10010101_11110001, .sbcIzy 0x95#8)]) = true := by decide

theorem test_decode_logic :
    (decodesAll [
      (16, 0b10010101_00101001, .andImm 0x95#8),
      (16, 0b10010101_00100101, .andZp 0x95#8),
      (16, 0b10010101_00110101, .andZpx 0x95#8),
      (24, 0b10010010_00110100_00101101, .andAbs 0x9234#16)] &&
    decodesAll [
      (24, 0b10010010_00110100_00111101, .andAbx 0x9234#16),
      (24, 0b10010010_00110100_00111001, .andAby 0x9234#16),
      (16, 0b10010101_00100001, .andIzx 0x95#8),
      (16, 0b10010101_00110001, .andIzy 0x95#8)] &&
    decodesAll [
      (16, 0b10010101_00001001, .oraImm 0x95#8),
      (16, 0b10010101_00000101, .oraZp 0x95#8),
      (16, 0b10010101_00010101, .oraZpx 0x95#8),
      (24, 0b10010010_00110100_00001101, .oraAbs 0x9234#16)] &&
    decodesAll [
      (24, 0b10010010_00110100_00011101, .oraAbx 0x9234#16),
      (24, 0b10010010_00110100_00011001, .oraAby 0x9234#16),
      (16, 0b10010101_00000001, .oraIzx 0x95#8),
      (16, 0b10010101_00010001, .oraIzy 0x95#8)] &&
    decodesAll [
      (16, 0b10010101_01001001, .eorImm 0x95#8),
      (16, 0b10010101_01000101, .eorZp 0x95#8),
      (16, 0b10010101_01010101, .eorZpx 0x95#8),
      (24, 0b10010010_00110100_01001101, .eorAbs 0x9234#16)] &&
    decodesAll [
      (24, 0b10010010_00110100_01011101, .eorAbx 0x9234#16),
      (24, 0b10010010_00110100_01011001, .eorAby 0x9234#16),
      (16, 0b10010101_01000001, .eorIzx 0x95#8),
      (16, 0b10010101_01010001, .eorIzy 0x95#8)] &&
    decodesAll [
      (16, 0b10010101_00100100, .bitZp 0x95#8),
      (24, 0b10010010_00110100_00101100, .bitAbs 0x9234#16)]) = true := by decide

theorem test_decode_shifts_left :
    (decodesAll [
      (8, 0b00001010, .aslAcc),
      (16, 0b10010101_00000110, .aslZp 0x95#8),
      (16, 0b10010101_00010110, .aslZpx 0x95#8),
      (24, 0b10010010_00110100_00001110, .aslAbs 0x9234#16)] &&
    decodesAll [
      (24, 0b10010010_00110100_00011110, .aslAbx 0x9234#16),
      (8, 0b00101010, .rolAcc),
      (16, 0b10010101_00100110, .rolZp 0x95#8),
      (16, 0b10010101_00110110, .rolZpx 0x95#8)] &&
    decodesAll [
      (24, 0b10010010_00110100_00101110, .rolAbs 0x9234#16),
      (24, 0b10010010_00110100_00111110, .rolAbx 0x9234#16)]) = true := by decide

theorem test_decode_shifts_right :
    (decodesAll [
      (8, 0b01001010, .lsrAcc),
      (16, 0b10010101_01000110, .lsrZp 0x95#8),
      (16, 0b10010101_01010110, .lsrZpx 0x95#8),
      (24, 0b10010010_00110100_01001110, .lsrAbs 0x9234#16)] &&
    decodesAll [
      (24, 0b10010010_00110100_01011110, .lsrAbx 0x9234#16),
      (8, 0b01101010, .rorAcc),
      (16, 0b10010101_01100110, .rorZp 0x95#8),
      (16, 0b10010101_01110110, .rorZpx 0x95#8)] &&
    decodesAll [
      (24, 0b10010010_00110100_01101110, .rorAbs 0x9234#16),
      (24, 0b10010010_00110100_01111110, .rorAbx 0x9234#16)]) = true := by decide

theorem test_decode_compares :
    (decodesAll [
      (16, 0b10010101_11001001, .cmpImm 0x95#8),
      (16, 0b10010101_11000101, .cmpZp 0x95#8),
      (16, 0b10010101_11010101, .cmpZpx 0x95#8),
      (24, 0b10010010_00110100_11001101, .cmpAbs 0x9234#16)] &&
    decodesAll [
      (24, 0b10010010_00110100_11011101, .cmpAbx 0x9234#16),
      (24, 0b10010010_00110100_11011001, .cmpAby 0x9234#16),
      (16, 0b10010101_11000001, .cmpIzx 0x95#8),
      (16, 0b10010101_11010001, .cmpIzy 0x95#8)] &&
    decodesAll [
      (16, 0b10010101_11100000, .cpxImm 0x95#8),
      (16, 0b10010101_11100100, .cpxZp 0x95#8),
      (24, 0b10010010_00110100_11101100, .cpxAbs 0x9234#16),
      (16, 0b10010101_11000000, .cpyImm 0x95#8)] &&
    decodesAll [
      (16, 0b10010101_11000100, .cpyZp 0x95#8),
      (24, 0b10010010_00110100_11001100, .cpyAbs 0x9234#16)]) = true := by decide

theorem test_decode_inc_dec :
    (decodesAll [
      (16, 0b10010101_11100110, .incZp 0x95#8),
      (16, 0b10010101_11110110, .incZpx 0x95#8),
      (24, 0b10010010_00110100_11101110, .incAbs 0x9234#16),
      (24, 0b10010010_00110100_11111110, .incAbx 0x9234#16)] &&
    decodesAll [
      (16, 0b10010101_11000110, .decZp 0x95#8),
      (16, 0b10010101_11010110, .decZpx 0x95#8),
      (24, 0b10010010_00110100_11001110, .decAbs 0x9234#16),
      (24, 0b10010010_00110100_11011110, .decAbx 0x9234#16)] &&
    decodesAll [
      (8, 0b11101000, .inx),
      (8, 0b11001000, .iny),
      (8, 0b11001010, .dex),
      (8, 0b10001000, .dey)]) = true := by decide

theorem test_decode_branches :
    (decodesAll [
      (16, 0b10010101_10010000, .bcc 0x95#8),
      (16, 0b10010101_10110000, .bcs 0x95#8),
      (16, 0b10010101_11110000, .beq 0x95#8),
      (16, 0b10010101_11010000, .bne 0x95#8)] &&
    decodesAll [
      (16, 0b10010101_00110000, .bmi 0x95#8),
      (16, 0b10010101_00010000, .bpl 0x95#8),
      (16, 0b10010101_01010000, .bvc 0x95#8),
      (16, 0b10010101_01110000, .bvs 0x95#8)]) = true := by decide

theorem test_decode_jumps :
    (decodesAll [
      (24, 0b10010010_00110100_01001100, .jmpAbs 0x9234#16),
      (24, 0b10010010_00110100_01101100, .jmpInd 0x9234#16),
      (24, 0b10010010_00110100_00100000, .jsr 0x9234#16),
      (8, 0b01100000, .rts)]) = true := by decide

theorem test_decode_stack :
    (decodesAll [
      (8, 0b01001000, .pha),
      (8, 0b00001000, .php),
      (8, 0b01101000, .pla),
      (8, 0b00101000, .plp)] &&
    decodesAll [
      (8, 0b01000000, .rti)]) = true := by decide

theorem test_decode_flags :
    (decodesAll [
      (8, 0b00011000, .clc),
      (8, 0b00111000, .sec),
      (8, 0b11011000, .cld),
      (8, 0b11111000, .sed)] &&
    decodesAll [
      (8, 0b01011000, .cli),
      (8, 0b01111000, .sei),
      (8, 0b10111000, .clv)]) = true := by decide

theorem test_decode_transfers :
    (decodesAll [
      (8, 0b10101010, .tax),
      (8, 0b10101000, .tay),
      (8, 0b10001010, .txa),
      (8, 0b10011000, .tya)] &&
    decodesAll [
      (8, 0b10111010, .tsx),
      (8, 0b10011010, .txs)]) = true := by decide

theorem test_decode_brk_nop :
    (decodesAll [
      (8, 0b00000000, .brk),
      (8, 0b11101010, .nop)]) = true := by decide

/-- The 105 bytes of R65 decode to nothing, whatever follows them. -/
theorem test_decode_illegal :
    illegalOpcodeBytes.length = 105 ∧
    illegalOpcodeBytes.all (fun op => decodeTableWord 24 (op.toNat + 0xEAEA00) == none) = true := by decide

/-- The document's anchors (R64): 0x45 is EOR and 0x46 is LSR zero page, JSR is three bytes. -/
theorem test_encode_anchors :
    encode (.eorZp 0x10#8) = [0x45#8, 0x10#8] ∧ encode (.lsrZp 0x10#8) = [0x46#8, 0x10#8] ∧
    encode (.jsr 0x1234#16) = [0x20#8, 0x34#8, 0x12#8] := by decide

/-! ## Single steps -/

/-- Memory with the given bytes and zeros elsewhere. -/
def cells (l : List (Nat × Byte)) : Memory := l.foldl (fun m c => m.write c.1 c.2) []

/-- The start state of 95_test_vectors.md: the registers as after reset, PC and memory as given. -/
def start (pc : Addr) (l : List (Nat × Byte)) : State := { State.reset with pc := pc, mem := cells l }

/-- A view of the state a step answers. -/
def seen {α : Type} (f : State → α) (s : State) : Option α :=
  match step s with
  | .next t => some (f t)
  | .fault _ => none
  | .refused _ => none

/-! ### Addressing modes (95_test_vectors.md, 2.1) -/

/-- R83, `LDA $80`: zero page; N set. -/
theorem test_step_ldaZp : seen (fun t => (t.a, t.p))
    (start 0x8000#16 [(0x8000, 0xA5#8), (0x8001, 0x80#8), (0x0080, 0x80#8)]) =
      some (0x80#8, 0xA0#8) := by decide

/-- R84, `LDA $FF,X`: wraps to 0x0000. -/
theorem test_step_ldaZpx : seen (fun t => (t.a, t.p))
    { start 0x8000#16 [(0x8000, 0xB5#8), (0x8001, 0xFF#8), (0x0000, 0x5A#8),
      (0x0100, 0xA5#8)] with x := 0x01#8 } =
      some (0x5A#8, 0x20#8) := by decide

/-- R85, `LDX $F0,Y`: wraps to 0x0010. -/
theorem test_step_ldxZpy : seen (fun t => (t.x, t.p))
    { start 0x8000#16 [(0x8000, 0xB6#8), (0x8001, 0xF0#8), (0x0010, 0x33#8),
      (0x0110, 0x44#8)] with y := 0x20#8 } =
      some (0x33#8, 0x20#8) := by decide

/-- R86, `LDA $1234`: low byte first. -/
theorem test_step_ldaAbs : seen (fun t => (t.a, t.p))
    (start 0x8000#16 [(0x8000, 0xAD#8), (0x8001, 0x34#8), (0x8002, 0x12#8), (0x1234, 0x99#8)]) =
      some (0x99#8, 0xA0#8) := by decide

/-- R87, `LDA $FFFF,X`: wraps past 0xFFFF. -/
theorem test_step_ldaAbx : seen (fun t => (t.a, t.p))
    { start 0x8000#16 [(0x8000, 0xBD#8), (0x8001, 0xFF#8), (0x8002, 0xFF#8),
      (0x0001, 0x77#8)] with x := 0x02#8 } =
      some (0x77#8, 0x20#8) := by decide

/-- R88, `LDA $2000,Y`. -/
theorem test_step_ldaAby : seen (fun t => (t.a, t.p))
    { start 0x8000#16 [(0x8000, 0xB9#8), (0x8001, 0x00#8), (0x8002, 0x20#8),
      (0x20FF, 0x10#8)] with y := 0xFF#8 } =
      some (0x10#8, 0x20#8) := by decide

/-- R91, `LDA ($FE,X)`: pointer hi byte from 0x0000, not 0x0100. -/
theorem test_step_ldaIzx : seen (fun t => (t.a, t.p))
    { start 0x8000#16 [(0x8000, 0xA1#8), (0x8001, 0xFE#8), (0x0000, 0x12#8), (0x00FF, 0x34#8),
      (0x0100, 0x99#8), (0x1234, 0x5C#8), (0x9934, 0x01#8)] with x := 0x01#8 } =
      some (0x5C#8, 0x20#8) := by decide

/-- R92, `LDA ($20),Y`: pre-indexed: pointer at 0x24; a stock 6502 would read 0x3004. -/
theorem test_step_ldaIzy : seen (fun t => (t.a, t.p))
    { start 0x8000#16 [(0x8000, 0xB1#8), (0x8001, 0x20#8), (0x0020, 0x00#8), (0x0021, 0x30#8),
      (0x0024, 0x74#8), (0x0025, 0x20#8), (0x2074, 0xAB#8), (0x3004, 0xCD#8)] with y := 0x04#8 } =
      some (0xAB#8, 0xA0#8) := by decide

/-- R92, `LDA ($F0),Y`: pointer at 0xFF/0x00. -/
theorem test_step_ldaIzy_2 : seen (fun t => (t.a, t.p))
    { start 0x8000#16 [(0x8000, 0xB1#8), (0x8001, 0xF0#8), (0x0000, 0x40#8), (0x00FF, 0x00#8),
      (0x4000, 0x11#8)] with y := 0x0F#8 } =
      some (0x11#8, 0x20#8) := by decide

/-- R90, `JMP ($02FF)`: hi byte from 0x0300 (no page-wrap quirk). -/
theorem test_step_jmpInd : seen (fun t => t.pc)
    (start 0x8000#16 [(0x8000, 0x6C#8), (0x8001, 0xFF#8), (0x8002, 0x02#8), (0x0200, 0x40#8),
      (0x02FF, 0x00#8), (0x0300, 0x90#8)]) =
      some 0x9000#16 := by decide

/-- R93, `LDA #$7F`: operand fetched from 0x0000; PC wraps to 0x0001. -/
theorem test_step_ldaImm : seen (fun t => (t.a, t.p, t.pc))
    (start 0xFFFF#16 [(0xFFFF, 0xA9#8), (0x0000, 0x7F#8)]) = some (0x7F#8, 0x20#8, 0x0001#16) := by decide

/-! ### Instructions (95_test_vectors.md, 2.2 to 2.10) -/

/-- R100, `LDA #$80`: N set, Z cleared. -/
theorem test_step_ldaImm_2 : seen (fun t => (t.a, t.p))
    { start 0x8000#16 [(0x8000, 0xA9#8), (0x8001, 0x80#8)] with p := 0x22#8 } =
      some (0x80#8, 0xA0#8) := by decide

/-- R101, `LDX #$00`: Z set, N cleared. -/
theorem test_step_ldxImm : seen (fun t => (t.x, t.p))
    { start 0x8000#16 [(0x8000, 0xA2#8), (0x8001, 0x00#8)] with x := 0x33#8, p := 0xA0#8 } =
      some (0x00#8, 0x22#8) := by decide

/-- R102, `LDY $10,X`. -/
theorem test_step_ldyZpx : seen (fun t => (t.y, t.p))
    { start 0x8000#16 [(0x8000, 0xB4#8), (0x8001, 0x10#8), (0x0012, 0xFF#8)] with x := 0x02#8 } =
      some (0xFF#8, 0xA0#8) := by decide

/-- R103, `STA $10,X`: (0x10+0xF5)&0xFF = 0x05. -/
theorem test_step_staZpx : seen (fun t => (t.p, t.readByte 0x0005#16))
    { start 0x8000#16 [(0x8000, 0x95#8), (0x8001, 0x10#8)] with a := 0xAA#8, x := 0xF5#8 } =
      some (0x20#8, 0xAA#8) := by decide

/-- R103, `STA ($40),Y`: pre-indexed: writes 0x0300, not 0x0502. -/
theorem test_step_staIzy : seen (fun t => (t.p, t.readByte 0x0300#16))
    { start 0x8000#16 [(0x8000, 0x91#8), (0x8001, 0x40#8), (0x0040, 0x00#8), (0x0041, 0x05#8),
      (0x0042, 0x00#8), (0x0043, 0x03#8)] with a := 0x77#8, y := 0x02#8 } =
      some (0x20#8, 0x77#8) := by decide

/-- R104, `STX $F0,Y`: wraps to 0x0001. -/
theorem test_step_stxZpy : seen (fun t => (t.p, t.readByte 0x0001#16))
    { start 0x8000#16 [(0x8000, 0x96#8), (0x8001, 0xF0#8)] with x := 0x12#8, y := 0x11#8 } =
      some (0x20#8, 0x12#8) := by decide

/-- R105, `STY $20`: N not written. -/
theorem test_step_styZp : seen (fun t => (t.p, t.readByte 0x0020#16))
    { start 0x8000#16 [(0x8000, 0x84#8), (0x8001, 0x20#8)] with y := 0x80#8 } =
      some (0x20#8, 0x80#8) := by decide

/-- R110, `ADC #$FF`. -/
theorem test_step_adcImm : seen (fun t => (t.a, t.p))
    { start 0x8000#16 [(0x8000, 0x69#8), (0x8001, 0xFF#8)] with a := 0xFF#8, p := 0x21#8 } =
      some (0xFF#8, 0xA1#8) := by decide

/-- R110, `ADC #$80`. -/
theorem test_step_adcImm_2 : seen (fun t => (t.a, t.p))
    { start 0x8000#16 [(0x8000, 0x69#8), (0x8001, 0x80#8)] with a := 0x80#8 } =
      some (0x00#8, 0x63#8) := by decide

/-- R111, `SBC #$B0`. -/
theorem test_step_sbcImm : seen (fun t => (t.a, t.p))
    { start 0x8000#16 [(0x8000, 0xE9#8), (0x8001, 0xB0#8)] with a := 0x50#8, p := 0x21#8 } =
      some (0xA0#8, 0xE0#8) := by decide

/-- R111, `SBC #$00`. -/
theorem test_step_sbcImm_2 : seen (fun t => (t.a, t.p))
    (start 0x8000#16 [(0x8000, 0xE9#8), (0x8001, 0x00#8)]) = some (0xFF#8, 0xA0#8) := by decide

/-- R112, `AND #$0F`: result 0: Z set, N cleared. -/
theorem test_step_andImm : seen (fun t => (t.a, t.p))
    { start 0x8000#16 [(0x8000, 0x29#8), (0x8001, 0x0F#8)] with a := 0xF0#8, p := 0xA0#8 } =
      some (0x00#8, 0x22#8) := by decide

/-- R113, `ORA ($10,X)`: (0x10+0xF0)&0xFF = 0x00. -/
theorem test_step_oraIzx : seen (fun t => (t.a, t.p))
    { start 0x8000#16 [(0x8000, 0x01#8), (0x8001, 0x10#8), (0x0000, 0x00#8), (0x0001, 0x02#8),
      (0x0200, 0x30#8)] with a := 0x0F#8, x := 0xF0#8 } =
      some (0x3F#8, 0x20#8) := by decide

/-- R114, `EOR $45`: opcode 0x45 (document anchor); result 0. -/
theorem test_step_eorZp : seen (fun t => (t.a, t.p))
    { start 0x8000#16 [(0x8000, 0x45#8), (0x8001, 0x45#8), (0x0045, 0xAA#8)] with a := 0xAA#8 } =
      some (0x00#8, 0x22#8) := by decide

/-- R115, `BIT $10`: A&M=0: Z; N,V from M. -/
theorem test_step_bitZp : seen (fun t => t.p)
    { start 0x8000#16 [(0x8000, 0x24#8), (0x8001, 0x10#8), (0x0010, 0xC0#8)] with a := 0x01#8 } =
      some 0xE2#8 := by decide

/-- R120, `ASL A`: N set, C cleared; old C not shifted in. -/
theorem test_step_aslAcc : seen (fun t => (t.a, t.p))
    { start 0x8000#16 [(0x8000, 0x0A#8)] with a := 0x40#8, p := 0x21#8 } = some (0x80#8, 0xA0#8) := by decide

/-- R120, `ASL $10`: memory form; A untouched. -/
theorem test_step_aslZp : seen (fun t => (t.p, t.readByte 0x0010#16))
    { start 0x8000#16 [(0x8000, 0x06#8), (0x8001, 0x10#8), (0x0010, 0xC1#8)] with a := 0x55#8 } =
      some (0xA1#8, 0x82#8) := by decide

/-- R121, `LSR A`: result 0: Z, C; N always 0. -/
theorem test_step_lsrAcc : seen (fun t => (t.a, t.p))
    { start 0x8000#16 [(0x8000, 0x4A#8)] with a := 0x01#8, p := 0xA0#8 } = some (0x00#8, 0x23#8) := by decide

/-- R121, `LSR $46`: opcode 0x46 is LSR zero page (document anchor). -/
theorem test_step_lsrZp : seen (fun t => (t.p, t.readByte 0x0046#16))
    (start 0x8000#16 [(0x8000, 0x46#8), (0x8001, 0x46#8), (0x0046, 0x03#8)]) =
      some (0x21#8, 0x01#8) := by decide

/-- R122, `ROL A`: old C into bit 0. -/
theorem test_step_rolAcc : seen (fun t => (t.a, t.p))
    { start 0x8000#16 [(0x8000, 0x2A#8)] with a := 0x80#8, p := 0x21#8 } = some (0x01#8, 0x21#8) := by decide

/-- R122, `ROL $0200`. -/
theorem test_step_rolAbs : seen (fun t => (t.p, t.readByte 0x0200#16))
    { start 0x8000#16 [(0x8000, 0x2E#8), (0x8001, 0x00#8), (0x8002, 0x02#8),
      (0x0200, 0x55#8)] with p := 0x21#8 } =
      some (0xA0#8, 0xAB#8) := by decide

/-- R123, `ROR A`: old C into bit 7. -/
theorem test_step_rorAcc : seen (fun t => (t.a, t.p))
    { start 0x8000#16 [(0x8000, 0x6A#8)] with a := 0x01#8, p := 0x21#8 } = some (0x80#8, 0xA1#8) := by decide

/-- R123, `ROR $1000,X`. -/
theorem test_step_rorAbx : seen (fun t => (t.p, t.readByte 0x10FF#16))
    { start 0x8000#16 [(0x8000, 0x7E#8), (0x8001, 0x00#8), (0x8002, 0x10#8),
      (0x10FF, 0x02#8)] with x := 0xFF#8 } =
      some (0x20#8, 0x01#8) := by decide

/-- R130, `CMP #$20`: less: C=0, N from 0xF0. -/
theorem test_step_cmpImm : seen (fun t => t.p)
    { start 0x8000#16 [(0x8000, 0xC9#8), (0x8001, 0x20#8)] with a := 0x10#8 } = some 0xA0#8 := by decide

/-- R130, `CMP #$00`: V untouched. -/
theorem test_step_cmpImm_2 : seen (fun t => t.p)
    { start 0x8000#16 [(0x8000, 0xC9#8), (0x8001, 0x00#8)] with a := 0x80#8, p := 0x60#8 } =
      some 0xE1#8 := by decide

/-- R131, `CPX #$05`: C from X (0): the source-compat variant would give C=1. -/
theorem test_step_cpxImm : seen (fun t => t.p)
    { start 0x8000#16 [(0x8000, 0xE0#8), (0x8001, 0x05#8)] with a := 0xFF#8, x := 0x04#8 } =
      some 0xA0#8 := by decide

/-- R132, `CPY $1234`. -/
theorem test_step_cpyAbs : seen (fun t => t.p)
    { start 0x8000#16 [(0x8000, 0xCC#8), (0x8001, 0x34#8), (0x8002, 0x12#8),
      (0x1234, 0x02#8)] with a := 0xFF#8, y := 0x01#8 } =
      some 0xA0#8 := by decide

/-- R133, `INC $10`: 0x80: N; V not written. -/
theorem test_step_incZp : seen (fun t => (t.p, t.readByte 0x0010#16))
    { start 0x8000#16 [(0x8000, 0xE6#8), (0x8001, 0x10#8), (0x0010, 0x7F#8)] with p := 0x21#8 } =
      some (0xA1#8, 0x80#8) := by decide

/-- R134, `DEC $10`: wraps to 0xFF: N. -/
theorem test_step_decZp : seen (fun t => (t.p, t.readByte 0x0010#16))
    (start 0x8000#16 [(0x8000, 0xC6#8), (0x8001, 0x10#8), (0x0010, 0x00#8)]) =
      some (0xA0#8, 0xFF#8) := by decide

/-- R135, `INX`: N. -/
theorem test_step_inx : seen (fun t => (t.x, t.p))
    { start 0x8000#16 [(0x8000, 0xE8#8)] with x := 0x7F#8 } = some (0x80#8, 0xA0#8) := by decide

/-- R136, `INY`: wraps: Z. -/
theorem test_step_iny : seen (fun t => (t.y, t.p))
    { start 0x8000#16 [(0x8000, 0xC8#8)] with y := 0xFF#8 } = some (0x00#8, 0x22#8) := by decide

/-- R137, `DEX`: wraps: N. -/
theorem test_step_dex : seen (fun t => (t.x, t.p))
    (start 0x8000#16 [(0x8000, 0xCA#8)]) = some (0xFF#8, 0xA0#8) := by decide

/-- R138, `DEY`: 0x7F: N=0. -/
theorem test_step_dey : seen (fun t => (t.y, t.p))
    { start 0x8000#16 [(0x8000, 0x88#8)] with y := 0x80#8 } = some (0x7F#8, 0x20#8) := by decide

/-- R146, `BCC +4`: taken. -/
theorem test_step_bcc : seen (fun t => t.pc)
    (start 0x8000#16 [(0x8000, 0x90#8), (0x8001, 0x04#8)]) = some 0x8006#16 := by decide

/-- R146, `BCC +4`: not taken. -/
theorem test_step_bcc_2 : seen (fun t => t.pc)
    { start 0x8000#16 [(0x8000, 0x90#8), (0x8001, 0x04#8)] with p := 0x21#8 } = some 0x8002#16 := by decide

/-- R147, `BCS -4`: taken backwards: 0x8012-4. -/
theorem test_step_bcs : seen (fun t => t.pc)
    { start 0x8010#16 [(0x8010, 0xB0#8), (0x8011, 0xFC#8)] with p := 0x21#8 } = some 0x800E#16 := by decide

/-- R147, `BCS -4`: not taken. -/
theorem test_step_bcs_2 : seen (fun t => t.pc)
    (start 0x8010#16 [(0x8010, 0xB0#8), (0x8011, 0xFC#8)]) = some 0x8012#16 := by decide

/-- R148, `BEQ +16`: taken. -/
theorem test_step_beq : seen (fun t => t.pc)
    { start 0x9000#16 [(0x9000, 0xF0#8), (0x9001, 0x10#8)] with p := 0x22#8 } = some 0x9012#16 := by decide

/-- R148, `BEQ +16`: not taken. -/
theorem test_step_beq_2 : seen (fun t => t.pc)
    (start 0x9000#16 [(0x9000, 0xF0#8), (0x9001, 0x10#8)]) = some 0x9002#16 := by decide

/-- R149, `BNE -7`: taken. -/
theorem test_step_bne : seen (fun t => t.pc)
    (start 0x8008#16 [(0x8008, 0xD0#8), (0x8009, 0xF9#8)]) = some 0x8003#16 := by decide

/-- R149, `BNE -7`: not taken. -/
theorem test_step_bne_2 : seen (fun t => t.pc)
    { start 0x8008#16 [(0x8008, 0xD0#8), (0x8009, 0xF9#8)] with p := 0x22#8 } = some 0x800A#16 := by decide

/-- R150, `BMI +127`: farthest forward. -/
theorem test_step_bmi : seen (fun t => t.pc)
    { start 0x8000#16 [(0x8000, 0x30#8), (0x8001, 0x7F#8)] with p := 0xA0#8 } = some 0x8081#16 := by decide

/-- R150, `BMI +127`: not taken. -/
theorem test_step_bmi_2 : seen (fun t => t.pc)
    (start 0x8000#16 [(0x8000, 0x30#8), (0x8001, 0x7F#8)]) = some 0x8002#16 := by decide

/-- R151, `BPL -128`: farthest backward. -/
theorem test_step_bpl : seen (fun t => t.pc)
    (start 0x8000#16 [(0x8000, 0x10#8), (0x8001, 0x80#8)]) = some 0x7F82#16 := by decide

/-- R151, `BPL -128`: not taken. -/
theorem test_step_bpl_2 : seen (fun t => t.pc)
    { start 0x8000#16 [(0x8000, 0x10#8), (0x8001, 0x80#8)] with p := 0xA0#8 } = some 0x8002#16 := by decide

/-- R152, `BVC +2`: taken. -/
theorem test_step_bvc : seen (fun t => t.pc)
    (start 0x8000#16 [(0x8000, 0x50#8), (0x8001, 0x02#8)]) = some 0x8004#16 := by decide

/-- R152, `BVC +2`: not taken. -/
theorem test_step_bvc_2 : seen (fun t => t.pc)
    { start 0x8000#16 [(0x8000, 0x50#8), (0x8001, 0x02#8)] with p := 0x60#8 } = some 0x8002#16 := by decide

/-- R153, `BVS +2`: taken. -/
theorem test_step_bvs : seen (fun t => t.pc)
    { start 0x8000#16 [(0x8000, 0x70#8), (0x8001, 0x02#8)] with p := 0x60#8 } = some 0x8004#16 := by decide

/-- R153, `BVS +2`: not taken. -/
theorem test_step_bvs_2 : seen (fun t => t.pc)
    (start 0x8000#16 [(0x8000, 0x70#8), (0x8001, 0x02#8)]) = some 0x8002#16 := by decide

/-- R154, `JMP ($0010)`. -/
theorem test_step_jmpInd_2 : seen (fun t => t.pc)
    (start 0x8000#16 [(0x8000, 0x6C#8), (0x8001, 0x10#8), (0x8002, 0x00#8), (0x0010, 0xCD#8), (0x0011, 0xAB#8)]) =
      some 0xABCD#16 := by decide

/-- R155, `JSR $1234`: document example. -/
theorem test_step_jsr : seen (fun t => (t.sp, t.pc, t.readByte 0x01FF#16, t.readByte 0x01FE#16))
    (start 0x0600#16 [(0x0600, 0x20#8), (0x0601, 0x34#8), (0x0602, 0x12#8)]) =
      some (0xFD#8, 0x1234#16, 0x06#8, 0x02#8) := by decide

/-- R155, `JSR $9000`: return 0x8100: hi at 0x0100, lo at 0x01FF (stack wrap). -/
theorem test_step_jsr_2 : seen (fun t => (t.sp, t.pc, t.readByte 0x0100#16, t.readByte 0x01FF#16))
    { start 0x80FE#16 [(0x80FE, 0x20#8), (0x80FF, 0x00#8), (0x8100, 0x90#8)] with sp := 0x00#8 } =
      some (0xFE#8, 0x9000#16, 0x81#8, 0x00#8) := by decide

/-- R156, `RTS`: document example: 0x0602+1. -/
theorem test_step_rts : seen (fun t => (t.sp, t.pc))
    { start 0x8000#16 [(0x8000, 0x60#8), (0x01FE, 0x02#8), (0x01FF, 0x06#8)] with sp := 0xFD#8 } =
      some (0xFF#8, 0x0603#16) := by decide

/-- R156, `RTS`: stack wrap: lo from 0x01FF, hi from 0x0100. -/
theorem test_step_rts_2 : seen (fun t => (t.sp, t.pc))
    { start 0x8000#16 [(0x8000, 0x60#8), (0x0100, 0x44#8), (0x01FF, 0x33#8)] with sp := 0xFE#8 } =
      some (0x00#8, 0x4434#16) := by decide

/-- R165, `PHA`: stack wrap. -/
theorem test_step_pha : seen (fun t => (t.sp, t.readByte 0x0100#16))
    { start 0x8000#16 [(0x8000, 0x48#8)] with a := 0x99#8, sp := 0x00#8 } = some (0xFF#8, 0x99#8) := by decide

/-- R166, `PHP`: pushes 0xF1; live P=0xC1. -/
theorem test_step_php : seen (fun t => (t.sp, t.p, t.readByte 0x01FF#16))
    { start 0x8000#16 [(0x8000, 0x08#8)] with p := 0xE1#8 } = some (0xFE#8, 0xC1#8, 0xF1#8) := by decide

/-- R167, `PLA`: stack wrap: reads 0x0100. -/
theorem test_step_pla : seen (fun t => (t.a, t.sp, t.p))
    (start 0x8000#16 [(0x8000, 0x68#8), (0x0100, 0x11#8)]) = some (0x11#8, 0x00#8, 0x20#8) := by decide

/-- R168, `PLP`: U forced: 0xE3. -/
theorem test_step_plp : seen (fun t => (t.sp, t.p))
    { start 0x8000#16 [(0x8000, 0x28#8), (0x01FF, 0xC3#8)] with sp := 0xFE#8 } =
      some (0xFF#8, 0xE3#8) := by decide

/-- R169, `RTI`: stack wrap across 0x01FF/0x0100. -/
theorem test_step_rti : seen (fun t => (t.sp, t.p, t.pc))
    { start 0x8000#16 [(0x8000, 0x40#8), (0x0100, 0x34#8), (0x0101, 0x12#8),
      (0x01FF, 0xA0#8)] with sp := 0xFE#8 } =
      some (0x01#8, 0x80#8, 0x1234#16) := by decide

/-- R175, `CLC`: only bit 0 changes. -/
theorem test_step_clc : seen (fun t => t.p)
    { start 0x8000#16 [(0x8000, 0x18#8)] with p := 0xFF#8 } = some 0xFE#8 := by decide

/-- R176, `SEC`. -/
theorem test_step_sec : seen (fun t => t.p)
    (start 0x8000#16 [(0x8000, 0x38#8)]) = some 0x21#8 := by decide

/-- R177, `CLD`. -/
theorem test_step_cld : seen (fun t => t.p)
    { start 0x8000#16 [(0x8000, 0xD8#8)] with p := 0x28#8 } = some 0x20#8 := by decide

/-- R178, `SED`. -/
theorem test_step_sed : seen (fun t => t.p)
    (start 0x8000#16 [(0x8000, 0xF8#8)]) = some 0x28#8 := by decide

/-- R179, `CLI`. -/
theorem test_step_cli : seen (fun t => t.p)
    { start 0x8000#16 [(0x8000, 0x58#8)] with p := 0x24#8 } = some 0x20#8 := by decide

/-- R180, `SEI`. -/
theorem test_step_sei : seen (fun t => t.p)
    (start 0x8000#16 [(0x8000, 0x78#8)]) = some 0x24#8 := by decide

/-- R181, `CLV`. -/
theorem test_step_clv : seen (fun t => t.p)
    { start 0x8000#16 [(0x8000, 0xB8#8)] with p := 0x60#8 } = some 0x20#8 := by decide

/-- R185, `TAX`: Z. -/
theorem test_step_tax : seen (fun t => (t.x, t.p))
    { start 0x8000#16 [(0x8000, 0xAA#8)] with x := 0x55#8, p := 0xA0#8 } = some (0x00#8, 0x22#8) := by decide

/-- R186, `TAY`. -/
theorem test_step_tay : seen (fun t => (t.y, t.p))
    { start 0x8000#16 [(0x8000, 0xA8#8)] with a := 0x7F#8 } = some (0x7F#8, 0x20#8) := by decide

/-- R187, `TXA`. -/
theorem test_step_txa : seen (fun t => (t.a, t.p))
    { start 0x8000#16 [(0x8000, 0x8A#8)] with a := 0xFF#8, x := 0x7F#8, p := 0xA0#8 } =
      some (0x7F#8, 0x20#8) := by decide

/-- R188, `TYA`. -/
theorem test_step_tya : seen (fun t => (t.a, t.p))
    { start 0x8000#16 [(0x8000, 0x98#8)] with y := 0xFF#8 } = some (0xFF#8, 0xA0#8) := by decide

/-- R189, `TSX`. -/
theorem test_step_tsx : seen (fun t => (t.x, t.p))
    { start 0x8000#16 [(0x8000, 0xBA#8)] with sp := 0xFD#8 } = some (0xFD#8, 0xA0#8) := by decide

/-- R190, `TXS`: no flags, although 0x00 moved. -/
theorem test_step_txs : seen (fun t => (t.sp, t.p))
    (start 0x8000#16 [(0x8000, 0x9A#8)]) = some (0x00#8, 0x20#8) := by decide

/-- R195, `BRK`: PC wraps to 0x0000; run = Halted. -/
theorem test_step_brk : seen (fun t => (t.pc, t.run))
    { start 0xFFFF#16 [(0xFFFF, 0x00#8)] with p := 0x24#8 } = some (0x0000#16, RunState.halted) := by decide

/-- R196, `NOP`. -/
theorem test_step_nop : seen (fun t => t.p)
    { start 0x8000#16 [(0x8000, 0xEA#8)] with a := 0x12#8, x := 0x34#8, y := 0x56#8, p := 0xE3#8 } =
      some 0xE3#8 := by decide

/-! ### Faults, the environment's actions, reset (95_test_vectors.md, 2.10, 2.11) -/

/-- R201, byte 0x02: PC not advanced, the record has the byte and the address. -/
theorem test_step_illegal : seen State.snapshot
    { start 0x8000#16 [(0x8000, 0x02#8)] with a := 0x11#8, sp := 0xF0#8, p := 0xA1#8 } =
      some ⟨0x11#8, 0x00#8, 0x00#8, 0xF0#8, 0x8000#16, 0xA1#8,
        .faulted (.illegalOpcode 0x02#8 0x8000#16)⟩ := by decide

/-- The start state of the interrupt rows of 2.11. -/
def atBoundary (p : Byte) (es : List Event) : State :=
  { start 0x8002#16 [(0xFFFB, 0x91#8), (0xFFFF, 0x90#8)] with
    a := 0x11#8, x := 0x22#8, y := 0x33#8, p := p, inputs := es }

/-- R206, R213: taken, live Break cleared and Unused set before the push. -/
theorem test_irq_entry : seen (fun t => (t.pc, t.sp, t.p)) (atBoundary 0x30#8 [.irq]) =
    some (0x9000#16, 0xFC#8, 0x24#8) := by decide

/-- R213: the frame, PC high at the old SP, then PC low, then the status. -/
theorem test_irq_frame : seen
    (fun t => (t.readByte 0x01FF#16, t.readByte 0x01FE#16, t.readByte 0x01FD#16)) (atBoundary 0xE3#8 [.irq]) =
    some (0x80#8, 0x02#8, 0xE3#8) := by decide

/-- R206, R210: masked, dropped. -/
theorem test_irq_masked : seen State.snapshot (atBoundary 0x24#8 [.irq]) =
    some (atBoundary 0x24#8 []).snapshot := by decide

/-- R207: taken although I = 1, through its own vector; the stacked status is 0xEB for P = 0xCB. -/
theorem test_nmi_entry : seen (fun t => (t.pc, t.p, t.readByte 0x01FD#16)) (atBoundary 0xCB#8 [.nmi]) =
    some (0x9100#16, 0xEF#8, 0xEB#8) := by decide

/-- R212: ignored in `Halted`. -/
theorem test_nmi_halted : seen State.snapshot { atBoundary 0x20#8 [.nmi] with run := .halted } =
    some ⟨0x11#8, 0x22#8, 0x33#8, 0xFF#8, 0x8002#16, 0x20#8, .halted⟩ := by decide

/-- R230, R231, R233: every register overwritten, the fault record gone. -/
theorem test_reset_from_fault : seen State.snapshot
    { start 0x8002#16 [(0xFFFC, 0x34#8), (0xFFFD, 0x12#8)] with
      a := 0xFF#8, x := 0xFF#8, y := 0xFF#8, sp := 0x00#8, p := 0xDF#8
      run := .faulted (.illegalOpcode 0x02#8 0x8002#16), inputs := [.reset] } =
    some ⟨0x00#8, 0x00#8, 0x00#8, 0xFF#8, 0x1234#16, 0x20#8, .running⟩ := by decide

/-- R41, R55: one byte is written and the core is left alone. -/
theorem test_environment_write : seen (fun t => (t.readByte 0xFFFF#16, t.readByte 0x0000#16, t.pc))
    { start 0x8000#16 [] with inputs := [.write 0xFFFF#16 0x5A#8] } = some (0x5A#8, 0x00#8, 0x8000#16) := by
  decide

/-- R56, R234: on zero-filled memory the first step from reset meets 0x00 and halts with PC = 0x0001. -/
theorem test_step_from_reset : seen (fun t => (t.pc, t.run)) State.reset = some (0x0001#16, .halted) := by
  decide

/-- How a run with fuel ends. -/
def ending (fuel : Nat) (s : State) : Option RunEnd :=
  match runWithFuel fuel s with
  | .next e => some e
  | .fault _ => none
  | .refused _ => none

/-- R218, R245: the run of zero-filled memory halts at its first step (R56, R234), and the reset still scheduled
is left unread. -/
theorem test_run_stops_at_halted : ending 3 { State.reset with inputs := [.step, .reset] } =
    some (.halted { State.reset with pc := 0x0001#16, run := .halted, inputs := [.reset] }) := by decide

/-- R218, R201: a run stops at `Faulted`, with the record. -/
theorem test_run_stops_at_faulted : ending 2 (start 0x8000#16 [(0x8000, 0x02#8)]) =
    some (.faulted (.illegalOpcode 0x02#8 0x8000#16)
      { start 0x8000#16 [(0x8000, 0x02#8)] with run := .faulted (.illegalOpcode 0x02#8 0x8000#16) }) := by
  decide

/-- D32: a core still running when the fuel is spent is out of fuel, where it is; the run has no result. -/
theorem test_run_out_of_fuel : ending 1 (start 0x8000#16 [(0x8000, 0xEA#8)]) =
    some (.outOfFuel (start 0x8001#16 [(0x8000, 0xEA#8)])) ∧
    (RunEnd.outOfFuel State.reset).result = none := by decide

/-- A placed word is what the very next step runs: STA $0200 with A = 0x0F (the example of R103). -/
theorem test_with_fetch_word : seen (fun t => (t.readByte 0x0200#16, t.pc))
    (State.withFetchWord { State.reset with a := 0x0F#8 } 24 0x02008D) = some (0x0F#8, 0x0003#16) := by
  decide

/-- R41, R56: writing zero leaves no entry, and entries stay in rising order. -/
theorem test_memory_canonical :
    cells [(5, 0x01#8), (3, 0x02#8), (5, 0x00#8)] = [(3, 0x02#8)] ∧
    cells [(5, 0x01#8), (3, 0x02#8)] = [(3, 0x02#8), (5, 0x01#8)] := by decide

/-! ## Witnesses: states and operands that meet the hypotheses of the statements -/

theorem witness_LoadsCopyTheOperandAndSetZeroNegative : (Instr.ldaIzy 0xFF#8).mnemonic = .lda ∧
    (Instr.ldxZpy 0xFF#8).mnemonic = .ldx ∧ (Instr.ldyImm 0x00#8).mnemonic = .ldy := by decide

theorem witness_StoresWriteTheRegisterAtTheAddress : (Instr.staAbx 0xFFFF#16).mnemonic = .sta ∧
    (Instr.stxZpy 0xFF#8).mnemonic = .stx ∧ (Instr.styAbs 0x0000#16).mnemonic = .sty := by decide

theorem witness_AdcAddsInBinaryWithCarryAndSignedOverflow :
    (Instr.adcImm 0xFF#8).mnemonic = .adc := by decide

theorem witness_SbcSubtractsInBinaryWithBorrowAndSignedOverflow :
    (Instr.sbcImm 0xFF#8).mnemonic = .sbc := by decide

theorem witness_LogicCombinesBitsIntoA : (Instr.andImm 0x00#8).mnemonic = .and ∧
    (Instr.oraZp 0x00#8).mnemonic = .ora ∧ (Instr.eorImm 0xFF#8).mnemonic = .eor := by decide

theorem witness_BitTestsMemoryAgainstA : (Instr.bitAbs 0xFFFF#16).mnemonic = .bit := by decide

theorem witness_ShiftsMoveOneBitAndWriteBack : Instr.aslAcc.mnemonic = .asl ∧
    (Instr.aslZp 0x00#8).mnemonic = .asl ∧ Instr.lsrAcc.mnemonic = .lsr ∧
    (Instr.lsrAbx 0xFFFF#16).mnemonic = .lsr := by decide

theorem witness_RotatesThreadTheCarry : Instr.rolAcc.mnemonic = .rol ∧
    (Instr.rolAbs 0x0000#16).mnemonic = .rol ∧ Instr.rorAcc.mnemonic = .ror ∧
    (Instr.rorZpx 0xFF#8).mnemonic = .ror := by decide

theorem witness_CmpComparesAccumulator : (Instr.cmpImm 0x00#8).mnemonic = .cmp := by decide

theorem witness_CpxCpyCompareTheirOwnRegister : (Instr.cpxImm 0xFF#8).mnemonic = .cpx ∧
    (Instr.cpyAbs 0xFFFF#16).mnemonic = .cpy := by decide

theorem witness_IncDecStepTheMemoryCell : (Instr.incZp 0x00#8).mnemonic = .inc ∧
    (Instr.decAbx 0xFFFF#16).mnemonic = .dec := by decide

/-- Each branch, taken and not taken. -/
theorem witness_BranchesTestTheirFlag :
    [Flag.c, .z, .n, .v].all (fun f => { State.reset with p := 0x00#8 }.flag f == false &&
      { State.reset with p := 0xFF#8 }.flag f == true) = true := by decide

/-- The two ends of the stack page: a push at 0x0100 and a pop that wraps to it. -/
theorem witness_StackStaysInPageOneAndWraps :
    (0x0100#16).toNat = 256 + { State.reset with sp := 0x00#8 }.sp.toNat ∧
    (0x0100#16).toNat = 256 + ({ State.reset with sp := 0xFF#8 }.sp.toNat + 1) % 256 := by decide

theorem witness_MemoryReadsBackWhatWasWritten :
    (start 0x8000#16 [(0x0000, 0x01#8), (0xFFFF, 0x02#8)]).mem.wf = true := by decide

/-- LDX #$05 at 0x8000, the environment asking for a step. -/
def atLdx : State := { start 0x8000#16 [(0x8000, 0xA2#8), (0x8001, 0x05#8)] with inputs := [.step, .irq] }

theorem witness_ImpliedImmediateRelativeOperands :
    decode (fetchBytes atLdx) = .ok (.ldxImm 0x05#8, [0x00#8]) ∧
    (Instr.ldxImm 0x05#8).operand = .immediate 0x05#8 := ⟨rfl, rfl⟩

/-- With a step scheduled and with nothing scheduled. -/
theorem witness_StepRunsTheDecodedInstruction :
    atLdx.run = .running ∧ StepDue atLdx [.irq] ∧ StepDue State.reset [] ∧
    decode [atLdx.readByte atLdx.pc, atLdx.readByte (atLdx.pc + 1), atLdx.readByte (atLdx.pc + 2)] =
      .ok (.ldxImm 0x05#8, [0x00#8]) := ⟨rfl, .inl rfl, .inr ⟨rfl, rfl⟩, rfl⟩

/-- BEQ with Z = 0 at 0xFFFF. -/
def atBeq : State := start 0xFFFF#16 [(0xFFFF, 0xF0#8), (0x0000, 0x10#8)]

theorem witness_StepAdvancesPCByTheInstructionLength :
    atBeq.run = .running ∧ StepDue atBeq [] ∧
    decode (fetchBytes atBeq) = .ok (.beq 0x10#8, [0x00#8]) ∧
    (Instr.beq 0x10#8).mnemonic ∉ [Mnemonic.jmp, .jsr, .rts, .rti] ∧
    (∀ f e, branchCondition (Instr.beq 0x10#8).mnemonic = some (f, e) → atBeq.flag f ≠ e) := by
  refine ⟨rfl, .inr ⟨rfl, rfl⟩, rfl, by decide, ?_⟩
  intro f e h
  cases h
  decide

/-- The first and the last illegal byte, and the first and the last legal one. -/
theorem witness_IllegalOpcodeFaultsAndChangesNothingElse :
    State.reset.run = .running ∧ StepDue State.reset [] ∧
    (start 0x8000#16 [(0x8000, 0x02#8)]).readByte 0x8000#16 ∈ illegalOpcodeBytes ∧
    (start 0x8000#16 [(0x8000, 0xFF#8)]).readByte 0x8000#16 ∈ illegalOpcodeBytes ∧
    State.reset.readByte State.reset.pc ∉ illegalOpcodeBytes ∧
    (start 0x8000#16 [(0x8000, 0xFE#8)]).readByte 0x8000#16 ∉ illegalOpcodeBytes :=
  ⟨rfl, .inr ⟨rfl, rfl⟩, by decide, by decide, by decide, by decide⟩

/-- A halted core with the given schedule. -/
def stopped (es : List Event) : State := { State.reset with run := .halted, inputs := es }

theorem witness_OnlyResetLeavesHaltedOrFaulted :
    (stopped []).run ≠ .running ∧ StepDue (stopped []) [] ∧
    (stopped [.irq]).inputs = .irq :: [] ∧ (stopped [.nmi]).inputs = .nmi :: [] ∧
    (stopped [.reset]).run ≠ .running ∧ (stopped [.reset]).inputs = .reset :: [] :=
  ⟨by decide, .inr ⟨rfl, rfl⟩, rfl, rfl, by decide, rfl⟩

theorem witness_HaltedAndFaultedLastUntilReset :
    (stopped [.nmi, .write 0x0000#16 0xEA#8, .step]).run ≠ .running ∧
    Event.reset ∉ (stopped [.nmi, .write 0x0000#16 0xEA#8, .step]).inputs ∧
    (stopped [.nmi, .write 0x0000#16 0xEA#8, .step]).Halted := ⟨by decide, by decide, rfl⟩

theorem witness_OnlyBrkHalts :
    State.reset.run ≠ .halted ∧ ∃ t, step State.reset = .next t ∧ t.run = .halted :=
  ⟨by decide, _, rfl, rfl⟩

theorem witness_FaultOnlyAtAnIllegalOpcode :
    (start 0x8000#16 [(0x8000, 0x02#8)]).run = .running ∧
    ∃ t f, step (start 0x8000#16 [(0x8000, 0x02#8)]) = .next t ∧ t.run = .faulted f :=
  ⟨rfl, _, _, rfl, rfl⟩

theorem witness_EnvironmentWriteStoresOneByte :
    { State.reset with inputs := [.write 0xFFFF#16 0xFF#8, .irq] }.inputs =
      .write 0xFFFF#16 0xFF#8 :: [.irq] := rfl

/-- A = 0xEA is stored at PC and the fetch there decodes it. -/
theorem witness_StoreIsSeenByTheNextFetch :
    ∃ t, exec (.staAbs 0x8003#16) { start 0x8003#16 [] with a := 0xEA#8 } = .next t ∧
      decode (fetchBytes t) = .ok (.nop, [0x00#8, 0x00#8]) := ⟨_, rfl, rfl⟩

/-- Masked and not masked. -/
theorem witness_IrqIsTakenUnlessMasked :
    (atBoundary 0x20#8 [.irq]).run = .running ∧ (atBoundary 0x20#8 [.irq]).inputs = .irq :: [] ∧
    (atBoundary 0x20#8 [.irq]).flag .i = false ∧ (atBoundary 0x24#8 [.irq]).flag .i = true :=
  ⟨rfl, rfl, by decide, by decide⟩

theorem witness_NmiIsAlwaysTaken :
    (atBoundary 0x24#8 [.nmi]).run = .running ∧ (atBoundary 0x24#8 [.nmi]).inputs = .nmi :: [] := ⟨rfl, rfl⟩

theorem witness_NmiThenIrqDropsTheIrq :
    (atBoundary 0x20#8 [.nmi, .irq]).run = .running ∧
    (atBoundary 0x20#8 [.nmi, .irq]).inputs = .nmi :: .irq :: [] := ⟨rfl, rfl⟩

theorem witness_ReturnFromInterruptUndoesTheEntry :
    (atBoundary 0x20#8 [.irq]).run = .running ∧
    ((atBoundary 0x20#8 [.irq]).inputs = .irq :: [] ∧ (atBoundary 0x20#8 [.irq]).flag .i = false) ∧
    (atBoundary 0x24#8 [.nmi]).inputs = .nmi :: [] := ⟨rfl, ⟨rfl, by decide⟩, rfl⟩

theorem witness_ResetLeavesTheResetValues : (stopped [.reset, .step]).inputs = .reset :: [.step] := rfl

theorem witness_SeededResetVectorStartsTheProgram :
    (stopped [.write 0xFFFC#16 0x00#8, .write 0xFFFD#16 0x80#8, .reset]).inputs =
      .write 0xFFFC#16 (lowByte 0x8000#16) :: .write 0xFFFD#16 (highByte 0x8000#16) :: .reset :: [] := rfl

/-- Each of the three ends: after a step, at once, and without fuel. -/
theorem witness_RunStopsExactlyWhereTheCoreStops :
    (∃ t, runWithFuel 1 State.reset = .next (.halted t) ∧ t.run = .halted ∧ RunsIn 1 State.reset t) ∧
    (∃ f t, runWithFuel 0 t = .next (.faulted f t) ∧ t.run = .faulted f ∧ RunsIn 0 t t) ∧
    runWithFuel 0 State.reset = .next (.outOfFuel State.reset) ∧ State.reset.run = .running ∧
    RunsIn 0 State.reset State.reset :=
  ⟨⟨_, rfl, rfl, .step rfl rfl (.here _)⟩,
    ⟨.illegalOpcode 0x02#8 0x0000#16,
      { State.reset with run := .faulted (.illegalOpcode 0x02#8 0x0000#16) }, rfl, rfl, .here _⟩,
    rfl, rfl, .here _⟩

theorem witness_OpcodesAreThoseOfTheInstructionRules :
    (Mode.indirectY, 0x91#8) ∈ opcodesOfTheInstructionRules .sta ∧
    (Instr.staIzy 0xFF#8).mnemonic = .sta ∧ (Instr.staIzy 0xFF#8).operand.mode = .indirectY ∧
    (Instr.staIzy 0xFF#8).opcode = 0x91#8 := by decide

theorem witness_EncodeUndoesDecode :
    decode [0x6C#8, 0xFF#8, 0x02#8, 0xEA#8] = .ok (.jmpInd 0x02FF#16, [0xEA#8]) := rfl

/-- A running state and a faulted one that have the invariant and step. -/
theorem witness_EveryStepKeepsTheInvariant :
    State.reset.Inv ∧ (∃ t, step State.reset = .next t) ∧
    { State.reset with run := .faulted (.illegalOpcode 0x02#8 0x0000#16) }.Inv := by
  refine ⟨⟨rfl, fun f h => nomatch h⟩, ⟨_, rfl⟩, rfl, ?_⟩
  intro f h
  cases h
  exact ⟨_, rfl, rfl⟩

/-- PLP of 0xFF over P = 0x00 changes every flag at once. -/
theorem witness_FlagsChangeOnlyByTheirWriters :
    ∃ t, exec .plp { start 0x8000#16 [(0x01FF, 0xFF#8)] with sp := 0xFE#8, p := 0x00#8 } = .next t ∧
      ∀ f, t.flag f ≠ { start 0x8000#16 [(0x01FF, 0xFF#8)] with sp := 0xFE#8, p := 0x00#8 }.flag f := by
  refine ⟨_, rfl, ?_⟩
  intro f
  cases f <;> decide

/-- Each of A (twice), X, Y and SP changes. -/
theorem witness_RegistersChangeOnlyByTheirWriters :
    (∃ t, exec (.ldaImm 0x01#8) State.reset = .next t ∧ t.a ≠ State.reset.a) ∧
    (∃ t, exec .aslAcc { State.reset with a := 0x01#8 } = .next t ∧ t.a ≠ 0x01#8) ∧
    (∃ t, exec .inx State.reset = .next t ∧ t.x ≠ State.reset.x) ∧
    (∃ t, exec .dey State.reset = .next t ∧ t.y ≠ State.reset.y) ∧
    (∃ t, exec .pha State.reset = .next t ∧ t.sp ≠ State.reset.sp) :=
  ⟨⟨_, rfl, by decide⟩, ⟨_, rfl, by decide⟩, ⟨_, rfl, by decide⟩, ⟨_, rfl, by decide⟩, ⟨_, rfl, by decide⟩⟩

/-- A store at 0xFFFF, pushes at both ends of page one, and both slots of JSR at the wrap. -/
theorem witness_MemoryChangesOnlyByStoresAndPushes :
    (∃ t, exec (.staAbs 0xFFFF#16) { State.reset with a := 0x01#8 } = .next t ∧
      t.readByte 0xFFFF#16 ≠ State.reset.readByte 0xFFFF#16) ∧
    (∃ t, exec .php State.reset = .next t ∧ t.readByte 0x01FF#16 ≠ State.reset.readByte 0x01FF#16) ∧
    (∃ t, exec .pha { State.reset with a := 0x01#8, sp := 0x00#8 } = .next t ∧
      t.readByte 0x0100#16 ≠ State.reset.readByte 0x0100#16) ∧
    (∃ t, exec (.jsr 0x1234#16) { start 0x8003#16 [] with sp := 0x00#8 } = .next t ∧
      t.readByte 0x0100#16 ≠ State.reset.readByte 0x0100#16 ∧
      t.readByte 0x01FF#16 ≠ State.reset.readByte 0x01FF#16) :=
  ⟨⟨_, rfl, by decide⟩, ⟨_, rfl, by decide⟩, ⟨_, rfl, by decide⟩, ⟨_, rfl, by decide, by decide⟩⟩

/-- Two states that differ in exactly the two bits, and a step of one. -/
theorem witness_BreakAndUnusedNeverReachAProgram :
    SameButBreakUnused { State.reset with p := 0x00#8 } { State.reset with p := 0x30#8 } ∧
    ∃ t, step { State.reset with p := 0x00#8 } = .next t := by
  refine ⟨⟨rfl, rfl, rfl, rfl, rfl, rfl, rfl, rfl, ?_⟩, _, rfl⟩
  intro f hf
  cases f <;> first | decide | exact absurd hf (by decide)

end Sys2Proof.Tests
end

section
/-! PROOFS. Zero-page addressing: the zero page is the first 256 addresses, so an index is added modulo 256
(R83 to R85). -/

namespace Sys2Proof.Machine

/-- A zero-page address has the number of its byte: its high byte is 0x00 (R83). -/
@[simp] theorem zeroPageAddr_toNat (b : Byte) : (zeroPageAddr b).toNat = b.toNat :=
  BitVec.toNat_setWidth_of_le (by decide)

/-- The byte sum is taken before it is widened, so no carry reaches the high byte (R84). -/
theorem zeroPageAddr_add_toNat (b index : Byte) :
    (zeroPageAddr (b + index)).toNat = (b.toNat + index.toNat) % 256 := by
  rw [zeroPageAddr_toNat, BitVec.toNat_add]

/-- An operand in memory is the byte at its effective address, whatever its mode (R80). -/
@[simp] theorem operandData_mem (m : MemOperand) (s : State) :
    operandData (.mem m) s = s.readByte (effAddr m s) := rfl

/-- Settles O30: the plain mode widens its byte, the indexed ones the byte sum with X or Y. -/
theorem zeroPageModesWrapInsideTheZeroPage : Obligations.ZeroPageModesWrapInsideTheZeroPage := by
  intro zp8 s
  exact ⟨zeroPageAddr_toNat zp8, zeroPageAddr_add_toNat zp8 s.x, zeroPageAddr_add_toNat zp8 s.y,
    operandData_mem (.zeroPage zp8) s, operandData_mem (.zeroPageX zp8) s, operandData_mem (.zeroPageY zp8) s⟩

end Sys2Proof.Machine
end

section
/-! PROOFS. Loads and stores (R100 to R105): each is one move into a register or one write of a byte; the frame
lemmas say of each primitive update that it changes only what it names. -/

namespace Sys2Proof.Machine

/-! ## Frames of the primitive updates -/

section Frames
variable (v : Byte) (s : State)

theorem setA_changesOnly : ChangesOnly [.a] [] [] s (s.setA v) := by
  refine ⟨fun r hr => ?_, fun _ _ => rfl, fun _ _ => rfl, rfl, rfl⟩
  cases r with
  | a => simp at hr
  | x | y | sp => rfl

theorem setX_changesOnly : ChangesOnly [.x] [] [] s (s.setX v) := by
  refine ⟨fun r hr => ?_, fun _ _ => rfl, fun _ _ => rfl, rfl, rfl⟩
  cases r with
  | x => simp at hr
  | a | y | sp => rfl

theorem setY_changesOnly : ChangesOnly [.y] [] [] s (s.setY v) := by
  refine ⟨fun r hr => ?_, fun _ _ => rfl, fun _ _ => rfl, rfl, rfl⟩
  cases r with
  | y => simp at hr
  | a | x | sp => rfl

/-- A write of memory changes its own byte and nothing else (R41, R43). -/
theorem writeByte_changesOnly (addr : Addr) : ChangesOnly [] [] [addr] s (s.writeByte addr v) := by
  refine ⟨fun r _ => by cases r <;> rfl, fun _ _ => rfl, fun b hb => ?_, rfl, rfl⟩
  exact State.readByte_writeByte_other s addr b v (List.mem_singleton.not.mp hb)

/-- `SetZN` sets the two flags it is named after (R96). -/
theorem setZN_zeroNegativeOf : ZeroNegativeOf v (setZN v s) := by
  simp [ZeroNegativeOf, isNegative]

end Frames

/-- `SetZN` after an update that keeps every flag adds Z and N to what changes (R24, R96). -/
theorem ChangesOnly.setZN {regs : List Reg} {stored : List Addr} {s t : State}
    (h : ChangesOnly regs [] stored s t) (v : Byte) : ChangesOnly regs [.z, .n] stored s (setZN v t) := by
  obtain ⟨hregs, hflags, hmem, hsession⟩ := h
  refine ⟨fun r hr => ?_, fun f hf => ?_, hmem, hsession⟩
  · rw [← hregs r hr]
    cases r <;> rfl
  · obtain ⟨hz, hn⟩ : f ≠ .z ∧ f ≠ .n := by simpa using hf
    rw [flag_setZN, if_neg hz, if_neg hn, hflags f List.not_mem_nil]

/-! ## Frames of the register moves -/

theorem moveToA_changesOnly (v : Byte) (s : State) : ChangesOnly [.a] [.z, .n] [] s (moveToA v s) :=
  (setA_changesOnly v s).setZN v

theorem moveToX_changesOnly (v : Byte) (s : State) : ChangesOnly [.x] [.z, .n] [] s (moveToX v s) :=
  (setX_changesOnly v s).setZN v

theorem moveToY_changesOnly (v : Byte) (s : State) : ChangesOnly [.y] [.z, .n] [] s (moveToY v s) :=
  (setY_changesOnly v s).setZN v

/-! ## The operations -/

/-- An instruction of a known operation has that operation's effect. -/
theorem exec_of_mnemonic {i : Instr} {op : Mnemonic} (h : i.mnemonic = op) (s : State) :
    exec i s = .next (effect op i.operand s) :=
  h ▸ exec_eq_effect i s

/-- Settles O1: a load is a move of the operand into its register. -/
theorem loadsCopyTheOperandAndSetZeroNegative : Obligations.LoadsCopyTheOperandAndSetZeroNegative := by
  intro i s
  refine ⟨fun h => ⟨moveToA (operandData i.operand s) s, exec_of_mnemonic h s, ?_⟩,
    fun h => ⟨moveToX (operandData i.operand s) s, exec_of_mnemonic h s, ?_⟩,
    fun h => ⟨moveToY (operandData i.operand s) s, exec_of_mnemonic h s, ?_⟩⟩
  · exact ⟨rfl, setZN_zeroNegativeOf _ _, rfl, moveToA_changesOnly _ _⟩
  · exact ⟨rfl, setZN_zeroNegativeOf _ _, rfl, moveToX_changesOnly _ _⟩
  · exact ⟨rfl, setZN_zeroNegativeOf _ _, rfl, moveToY_changesOnly _ _⟩

/-- An instruction whose operand is in memory and whose effect is a store of `v` writes `v` at its effective
address and changes nothing else (R103 to R105). -/
theorem exec_store {i : Instr} {s : State} {v : Byte} (hoperand : ∃ m, i.operand = .mem m)
    (hexec : exec i s = .next (storeAt v i.operand s)) :
    ∃ m t, i.operand = .mem m ∧ exec i s = .next t ∧
      t.readByte (effAddr m s) = v ∧ t.pc = s.pc ∧ ChangesOnly [] [] [effAddr m s] s t := by
  obtain ⟨m, hm⟩ := hoperand
  rw [hm] at hexec
  exact ⟨m, s.writeByte (effAddr m s) v, hm, hexec, State.readByte_writeByte_same _ _ _, rfl,
    writeByte_changesOnly _ _ _⟩

/-- Settles O2: the operand of a store is in memory, and its effect is the store of its own register. -/
theorem storesWriteTheRegisterAtTheAddress : Obligations.StoresWriteTheRegisterAtTheAddress := by
  intro i s
  exact ⟨fun h => exec_store (operand_mem i (by simp [h])) (exec_of_mnemonic h s),
    fun h => exec_store (operand_mem i (by simp [h])) (exec_of_mnemonic h s),
    fun h => exec_store (operand_mem i (by simp [h])) (exec_of_mnemonic h s)⟩

end Sys2Proof.Machine
end

section
/-! PROOFS. Logic (R112 to R114): each operation is one bitwise combination of A and the operand, moved into A. -/

namespace Sys2Proof.Machine

/-- An instruction whose effect combines A with its operand by `combine`, which acts on each bit as `bitOp`, does
so on each bit of A, sets Z and N from the result and changes nothing else (R112 to R114). -/
theorem exec_combineA {i : Instr} {s : State} {combine : Byte → Byte → Byte} {bitOp : Bool → Bool → Bool}
    (hbits : ∀ u v k, (combine u v).getLsbD k = bitOp (u.getLsbD k) (v.getLsbD k))
    (hexec : exec i s = .next (combineA combine i.operand s)) :
    ∃ t, exec i s = .next t ∧
      (∀ k, t.a.getLsbD k = bitOp (s.a.getLsbD k) ((operandData i.operand s).getLsbD k)) ∧
      ZeroNegativeOf t.a t ∧ t.pc = s.pc ∧ ChangesOnly [.a] [.z, .n] [] s t :=
  ⟨_, hexec, hbits _ _, setZN_zeroNegativeOf _ _, rfl, moveToA_changesOnly _ _⟩

/-- Settles O5: the three operations are the bitwise and, or and exclusive or of bytes. -/
theorem logicCombinesBitsIntoA : Obligations.LogicCombinesBitsIntoA := by
  intro i s
  exact ⟨fun h => exec_combineA (fun _ _ _ => BitVec.getLsbD_and) (exec_of_mnemonic h s),
    fun h => exec_combineA (fun _ _ _ => BitVec.getLsbD_or) (exec_of_mnemonic h s),
    fun h => exec_combineA (fun _ _ _ => BitVec.getLsbD_xor) (exec_of_mnemonic h s)⟩

end Sys2Proof.Machine
end

section
/-! PROOFS. Shifts (R120, R121, R124): a shift sets its three flags, and then writes its result back to A or to the
cell its operand came from. -/

namespace Sys2Proof.Machine

/-! ## The flags of a shift -/

section Flags
variable (out : Shifted) (s : State)

/-- C is the bit shifted out (R120 to R123). -/
theorem flag_c_setShiftFlags : (setShiftFlags out s).flag .c = out.carry :=
  flag_setShiftFlags s out .c

theorem setShiftFlags_zeroNegativeOf : ZeroNegativeOf out.result (setShiftFlags out s) :=
  setZN_zeroNegativeOf out.result (s.setFlag .c out.carry)

theorem setShiftFlags_flagsKept : FlagsKept [.c, .z, .n] s (setShiftFlags out s) := by
  intro f hf
  obtain ⟨hc, hz, hn⟩ : f ≠ .c ∧ f ≠ .z ∧ f ≠ .n := by simpa using hf
  rw [flag_setShiftFlags, if_neg hc, if_neg hz, if_neg hn]

end Flags

/-! ## Shifts and rotates of either form -/

/-- The result goes back to A in the accumulator form (R124). -/
theorem shiftA_writtenBack (f : Byte → Bool → Shifted) (s : State) :
    WrittenBack .implied (f s.a (s.flag .c)).result s (shiftA f s) := by
  obtain ⟨hregs, -, hmem, -⟩ := setA_changesOnly (f s.a (s.flag .c)).result (setShiftFlags (f s.a (s.flag .c)) s)
  exact ⟨rfl, hregs, hmem⟩

/-- The result goes back to the cell at the effective address in a memory form (R124). -/
theorem shiftMem_writtenBack (f : Byte → Bool → Shifted) (m : MemOperand) (s : State) :
    WrittenBack (.mem m) (f (s.readByte (effAddr m s)) (s.flag .c)).result s (shiftMem f m s) := by
  rw [shiftMem_spec]
  generalize f (s.readByte (effAddr m s)) (s.flag .c) = out
  obtain ⟨hregs, -, hmem, -⟩ := writeByte_changesOnly out.result (setShiftFlags out s) (effAddr m s)
  exact ⟨State.readByte_writeByte_same _ _ _, hregs, hmem⟩

/-- An instruction whose effect is the shift or rotate `f` of its operand writes the result of `f` back, sets C,
Z and N from what `f` answers and changes nothing else (R120 to R124). -/
theorem exec_shift {i : Instr} {s : State} {f : Byte → Bool → Shifted} {out : Shifted}
    (hoperand : i.operand = .implied ∨ ∃ m, i.operand = .mem m)
    (hexec : exec i s = .next (shiftAt f i.operand s))
    (hout : f (operandData i.operand s) (s.flag .c) = out) :
    ∃ t, exec i s = .next t ∧ WrittenBack i.operand out.result s t ∧ t.flag .c = out.carry ∧
      ZeroNegativeOf out.result t ∧ FlagsKept [.c, .z, .n] s t ∧ t.pc = s.pc ∧ SessionKept s t := by
  subst hout
  refine ⟨_, hexec, ?_⟩
  obtain ho | ⟨m, ho⟩ := hoperand
  · rw [ho]
    exact ⟨shiftA_writtenBack f s, flag_c_setShiftFlags _ s, setShiftFlags_zeroNegativeOf _ s,
      setShiftFlags_flagsKept _ s, rfl, rfl, rfl⟩
  · rw [ho]
    exact ⟨shiftMem_writtenBack f m s, flag_c_setShiftFlags _ s, setShiftFlags_zeroNegativeOf _ s,
      setShiftFlags_flagsKept _ s, rfl, rfl, rfl⟩

/-! ## Shifts in numbers -/

/-- Bit 7 of a byte is set exactly in the upper half of its range. -/
theorem getLsbD_seven_eq_decide (v : Byte) : v.getLsbD 7 = decide (128 ≤ v.toNat) :=
  v.msb_eq_getLsbD_last.symm.trans v.msb_eq_decide

/-- Bit 0 of a byte is set exactly when the byte is odd. -/
theorem getLsbD_zero_eq_decide (v : Byte) : v.getLsbD 0 = decide (v.toNat % 2 = 1) := by
  rw [← BitVec.testBit_toNat, Nat.testBit_zero]

/-- ASL doubles modulo 256 and shifts out bit 7 (R120). -/
theorem shiftLeft_eq_double (v : Byte) (carry : Bool) :
    shiftLeft v carry = ⟨BitVec.ofNat 8 (2 * v.toNat), decide (128 ≤ v.toNat)⟩ := by
  have hresult : v <<< 1 = BitVec.ofNat 8 (2 * v.toNat) := by
    apply BitVec.eq_of_toNat_eq
    rw [BitVec.toNat_shiftLeft, BitVec.toNat_ofNat, Nat.shiftLeft_eq, Nat.pow_one, Nat.mul_comm]
  rw [shiftLeft, hresult, getLsbD_seven_eq_decide]

/-- LSR halves and shifts out bit 0 (R121). -/
theorem shiftRight_eq_half (v : Byte) (carry : Bool) :
    shiftRight v carry = ⟨BitVec.ofNat 8 (v.toNat / 2), decide (v.toNat % 2 = 1)⟩ := by
  have hresult : v >>> 1 = BitVec.ofNat 8 (v.toNat / 2) := by
    apply BitVec.eq_of_toNat_eq
    rw [BitVec.toNat_ushiftRight, BitVec.toNat_ofNat, Nat.shiftRight_eq_div_pow, Nat.pow_one,
      Nat.mod_eq_of_lt (by omega)]
  rw [shiftRight, hresult, getLsbD_zero_eq_decide]

/-- Half of a byte is below 0x80, so LSR leaves N clear (R121). -/
theorem getLsbD_seven_half (v : Byte) : (BitVec.ofNat 8 (v.toNat / 2)).getLsbD 7 = false := by
  rw [getLsbD_seven_eq_decide, BitVec.toNat_ofNat]
  exact decide_eq_false (by omega)

/-- Settles O7: ASL and LSR are the shifts of their operand, and these double and halve. -/
theorem shiftsMoveOneBitAndWriteBack : Obligations.ShiftsMoveOneBitAndWriteBack := by
  intro i s
  refine ⟨fun h => ?_, fun h => ?_⟩
  · obtain ⟨t, hexec, hback, hc, hzn, hkept⟩ :=
      exec_shift (operand_shift i (by simp [h])) (exec_of_mnemonic h s) (shiftLeft_eq_double _ _)
    exact ⟨t, hexec, hback, hc ▸ decide_eq_true_iff, hzn, hkept⟩
  · obtain ⟨t, hexec, hback, hc, ⟨hz, hn⟩, hkept⟩ :=
      exec_shift (operand_shift i (by simp [h])) (exec_of_mnemonic h s) (shiftRight_eq_half _ _)
    have hnclear : t.flag .n = false := hn.trans (getLsbD_seven_half _)
    exact ⟨t, hexec, hback, hc ▸ decide_eq_true_iff, ⟨hz, hn⟩, hnclear, hkept⟩

end Sys2Proof.Machine
end

section
/-! PROOFS. Compares, increments and decrements (R130, R133, R134): a compare writes C, Z and N alone, and INC and
DEC replace the cell at the effective address by its successor or predecessor modulo 256. -/

namespace Sys2Proof.Machine

/-! ## Compares -/

section Compare
variable (reg data : Byte) (s : State)

/-- C is set exactly when the register is not below the operand, as unsigned bytes (R130). -/
theorem flag_c_compareWith : (compareWith reg data s).flag .c = true ↔ data.toNat ≤ reg.toNat := by
  rw [flag_compareWith, if_pos rfl]
  exact decide_eq_true_iff

/-- Z is set exactly on equality: only then is the difference modulo 256 zero (R130). -/
theorem flag_z_compareWith : (compareWith reg data s).flag .z = true ↔ reg = data :=
  calc (compareWith reg data s).flag .z = true
      ↔ isZero (reg - data) = true := by simp [flag_compareWith]
    _ ↔ reg - data = 0x00#8 := isZero_eq_true _
    _ ↔ reg = data := sub_eq_zero

/-- N is bit 7 of the difference modulo 256 (R130). -/
theorem flag_n_compareWith : (compareWith reg data s).flag .n = (reg - data).getLsbD 7 :=
  flag_compareWith data s reg .n

/-- A compare stores its difference nowhere (R24, R130). -/
theorem compareWith_changesOnly : ChangesOnly [] [.c, .z, .n] [] s (compareWith reg data s) := by
  refine ⟨fun r _ => by cases r <;> rfl, fun f hf => ?_, fun _ _ => rfl, rfl, rfl⟩
  obtain ⟨hc, hz, hn⟩ : f ≠ .c ∧ f ≠ .z ∧ f ≠ .n := by simpa using hf
  rw [flag_compareWith, if_neg hc, if_neg hz, if_neg hn]

end Compare

/-- Settles O9: the effect of CMP is the compare of A with the operand. -/
theorem cmpComparesAccumulator : Obligations.CmpComparesAccumulator := by
  intro i s h
  exact ⟨_, exec_of_mnemonic h s, flag_c_compareWith _ _ s, flag_z_compareWith _ _ s, flag_n_compareWith _ _ s,
    rfl, compareWith_changesOnly _ _ s⟩

/-! ## Increments and decrements of memory -/

theorem increment_toNat (v : Byte) : (increment v).toNat = (v.toNat + 1) % 256 :=
  BitVec.toNat_add v 1

/-- Modulo 256, subtracting 1 is adding 255 (R134). -/
theorem decrement_toNat (v : Byte) : (decrement v).toNat = (v.toNat + 255) % 256 := by
  rw [Nat.add_comm]
  exact BitVec.toNat_sub v 1

/-- An instruction whose operand is in memory and whose effect is the step `f` of it, which adds `k` modulo 256,
does so to the byte at its effective address, sets Z and N from the result and changes nothing else (R133, R134). -/
theorem exec_stepAt {i : Instr} {s : State} {f : Byte → Byte} {k : Nat}
    (hf : ∀ v, (f v).toNat = (v.toNat + k) % 256) (hoperand : ∃ m, i.operand = .mem m)
    (hexec : exec i s = .next (stepAt f i.operand s)) :
    ∃ m t, i.operand = .mem m ∧ exec i s = .next t ∧
      (t.readByte (effAddr m s)).toNat = ((s.readByte (effAddr m s)).toNat + k) % 256 ∧
      ZeroNegativeOf (t.readByte (effAddr m s)) t ∧ t.pc = s.pc ∧
      ChangesOnly [] [.z, .n] [effAddr m s] s t := by
  obtain ⟨m, hm⟩ := hoperand
  have hread : (stepMem f m s).readByte (effAddr m s) = f (s.readByte (effAddr m s)) := by
    rw [stepMem_spec, setZN_readByte, State.readByte_writeByte_same]
  rw [hm] at hexec
  refine ⟨m, stepMem f m s, hm, hexec, ?_, ?_, rfl, (writeByte_changesOnly _ s (effAddr m s)).setZN _⟩
  · rw [hread, hf]
  · rw [hread]
    exact setZN_zeroNegativeOf _ _

/-- Settles O11: INC and DEC are the steps of their operand by `increment` and `decrement`. -/
theorem incDecStepTheMemoryCell : Obligations.IncDecStepTheMemoryCell := by
  intro i s
  exact ⟨fun h => exec_stepAt increment_toNat (operand_mem i (by simp [h])) (exec_of_mnemonic h s),
    fun h => exec_stepAt decrement_toNat (operand_mem i (by simp [h])) (exec_of_mnemonic h s)⟩

end Sys2Proof.Machine
end

section
/-! PROOFS. NOP (R196): its effect is the state it was given, in which the fetch has already advanced PC. -/

namespace Sys2Proof.Machine

/-- Settles O28: NOP has the effect of its operation, and that effect is the identity. -/
theorem nopChangesNothing : Obligations.NopChangesNothing := by
  intro s
  calc exec .nop s
      = .next (effect .nop Instr.nop.operand s) := exec_of_mnemonic rfl s
    _ = .next s := rfl

end Sys2Proof.Machine
end

section
/-! PROOFS. The encoding (R60 to R66): the decoder reads back exactly the bytes the encoder writes, and the opcode
map agrees with the rules of the instructions. -/

namespace Sys2Proof.Machine

/-! ## Round trips -/

/-- The decoder reads any instruction back from its own bytes, form by form of its matrix cell (R60, R63). -/
theorem decode_encode (i : Instr) (after : List Byte) : decode (encode i ++ after) = .ok (i, after) := by
  obtain ⟨f, hf, hi⟩ := formOf_opcode i
  have hagrees := formOf_agrees i.opcode f hf
  cases f with
  | bare j =>
    obtain rfl : i = j := hi
    simp [encode, decode, hf, hagrees.2]
  | byte g =>
    obtain ⟨b, rfl⟩ := hi
    simp [encode, decode, hf, (hagrees b).2]
  | word g =>
    obtain ⟨w, rfl⟩ := hi
    simp [encode, decode, hf, (hagrees w).2, wordBytes]

/-- Settles O52: every instruction is well formed, and its bytes decode to it. -/
theorem decodeUndoesEncode : Obligations.DecodeUndoesEncode :=
  fun i after => ⟨i.wf_eq_true, decode_encode i after⟩

/-- What a cell of the matrix makes of the bytes after the opcode is an instruction with just these bytes (R61). -/
theorem encode_of_agrees {op : Byte} {i : Instr} {operands : List Byte}
    (h : i.opcode = op ∧ i.operand.bytes = operands) (after : List Byte) :
    encode i ++ after = op :: (operands ++ after) := by
  rw [encode, h.1, h.2, List.cons_append]

/-- Settles O53: the decoder hands on every bit of the bytes it consumes, cell by cell of the matrix. -/
theorem encodeUndoesDecode : Obligations.EncodeUndoesDecode := by
  intro bytes after i h
  cases bytes with
  | nil => simp [decode] at h
  | cons op rest =>
    cases hf : formOf op with
    | none => simp [decode, hf] at h
    | some f =>
      have hagrees := formOf_agrees op f hf
      cases f with
      | bare j =>
        obtain ⟨rfl, rfl⟩ : j = i ∧ rest = after := by simpa [decode, hf] using h
        exact encode_of_agrees hagrees rest
      | byte g =>
        match rest, h with
        | [], h => simp [decode, hf] at h
        | b :: rest, h =>
          obtain ⟨rfl, rfl⟩ : g b = i ∧ rest = after := by simpa [decode, hf] using h
          exact encode_of_agrees (hagrees b) rest
      | word g =>
        match rest, h with
        | [], h => simp [decode, hf] at h
        | [_], h => simp [decode, hf] at h
        | lo :: hi :: rest, h =>
          obtain ⟨rfl, rfl⟩ : g (joinBytes lo hi) = i ∧ rest = after := by simpa [decode, hf] using h
          rw [encode_of_agrees (hagrees _) rest]
          simp [wordBytes]

/-! ## The opcode map -/

/-- The instruction a cell of the matrix gives with operand bytes of zeros. -/
def sampleOf : Form → Instr
  | .bare i => i
  | .byte f => f 0x00#8
  | .word f => f 0x0000#16

/-- Operation, mode and opcode of the instruction an opcode byte selects, if it selects one (R63). -/
def lookup (op : Byte) : Option (Mnemonic × Mode × Byte) :=
  (formOf op).map fun f => ((sampleOf f).mnemonic, (sampleOf f).operand.mode, (sampleOf f).opcode)

/-- The matrix has, at every opcode of the instruction rules, the operation and mode they name (R63, R100 to R196). -/
theorem lookup_of_mem_rules (m : Mnemonic) :
    ∀ entry ∈ opcodesOfTheInstructionRules m, lookup entry.2 = some (m, entry.1, entry.2) := by
  cases m <;> decide

/-- The rules of an operation list every instruction of it (R100 to R196). -/
theorem mem_rules_of_instr (i : Instr) :
    (i.operand.mode, i.opcode) ∈ opcodesOfTheInstructionRules i.mnemonic := by
  cases i <;>
    dsimp only [Instr.mnemonic, Instr.operand, Instr.descriptor, Operand.mode, MemOperand.mode, Instr.opcode] <;>
    decide

/-- Settles O54: a listed opcode is looked up in the matrix, and every instruction is listed. -/
theorem opcodesAreThoseOfTheInstructionRules : Obligations.OpcodesAreThoseOfTheInstructionRules := by
  intro m mode op
  constructor
  · intro h
    have hlookup := lookup_of_mem_rules m (mode, op) h
    obtain ⟨f, -, hf⟩ := Option.map_eq_some_iff.mp hlookup
    obtain ⟨hm, hmode, hop⟩ : _ ∧ _ ∧ _ := by simpa using hf
    exact ⟨sampleOf f, hm, hmode, hop⟩
  · rintro ⟨i, rfl, rfl, rfl⟩
    exact mem_rules_of_instr i

/-- Settles O51: fourteen evaluations of the decoder on closed words. -/
theorem encodedWordsDecode : Obligations.EncodedWordsDecode := by
  unfold Obligations.EncodedWordsDecode
  decide

/-! ## Illegal opcodes -/

/-- The matrix has no entry exactly at the 105 listed bytes (R65): every listed cell is empty, and every empty cell,
row by row, is listed. -/
theorem formOf_eq_none_iff (op : Byte) : formOf op = none ↔ op ∈ illegalOpcodeBytes := by
  have hlisted : (illegalOpcodeBytes.all fun op => (formOf op).isNone) = true := by
    decide
  have hempty : ∀ row < 16, ∀ column < 16, (formOf (BitVec.ofNat 8 (16 * row + column))).isNone = true →
      BitVec.ofNat 8 (16 * row + column) ∈ illegalOpcodeBytes := by
    decide
  have hop := hempty (op.toNat / 16) (by omega) (op.toNat % 16) (by omega)
  rw [Nat.div_add_mod, BitVec.ofNat_toNat, BitVec.setWidth_eq] at hop
  rw [← Option.isNone_iff_eq_none]
  exact ⟨hop, List.all_eq_true.mp hlisted op⟩

end Sys2Proof.Machine
end

section
/-! PROOFS. Frames (R24): how the frames of updates made one after another combine, and the frame of each primitive
update of the state. -/

namespace Sys2Proof.Machine

/-! ## Combining frames -/

theorem ChangesOnly.refl (s : State) : ChangesOnly [] [] [] s s :=
  ⟨fun _ _ => rfl, fun _ _ => rfl, fun _ _ => rfl, rfl, rfl⟩

/-- Two updates one after the other change at most what either names. -/
theorem ChangesOnly.trans {regs regs' : List Reg} {flags flags' : List Flag} {stored stored' : List Addr}
    {s t u : State} (h : ChangesOnly regs flags stored s t) (h' : ChangesOnly regs' flags' stored' t u) :
    ChangesOnly (regs ++ regs') (flags ++ flags') (stored ++ stored') s u := by
  obtain ⟨hr, hf, hm, hrun, hin⟩ := h
  obtain ⟨hr', hf', hm', hrun', hin'⟩ := h'
  refine ⟨fun r hn => ?_, fun f hn => ?_, fun a hn => ?_, hrun'.trans hrun, hin'.trans hin⟩
  all_goals rw [List.mem_append, not_or] at hn
  · exact (hr' r hn.2).trans (hr r hn.1)
  · exact (hf' f hn.2).trans (hf f hn.1)
  · exact (hm' a hn.2).trans (hm a hn.1)

/-- A frame may name more than it needs to. -/
theorem ChangesOnly.mono {regs regs' : List Reg} {flags flags' : List Flag} {stored stored' : List Addr}
    {s t : State} (h : ChangesOnly regs flags stored s t) (hregs : regs ⊆ regs') (hflags : flags ⊆ flags')
    (hstored : stored ⊆ stored') : ChangesOnly regs' flags' stored' s t := by
  obtain ⟨hr, hf, hm, hsession⟩ := h
  exact ⟨fun r hn => hr r fun hmem => hn (hregs hmem), fun f hn => hf f fun hmem => hn (hflags hmem),
    fun a hn => hm a fun hmem => hn (hstored hmem), hsession⟩

/-- Registers that have their old values back need not be named. -/
theorem ChangesOnly.restored {regs : List Reg} {flags : List Flag} {stored : List Addr} {s t : State}
    (h : ChangesOnly regs flags stored s t) (hback : ∀ r ∈ regs, t.reg r = s.reg r) :
    ChangesOnly [] flags stored s t := by
  obtain ⟨hregs, hrest⟩ := h
  refine ⟨fun r _ => ?_, hrest⟩
  by_cases hr : r ∈ regs
  · exact hback r hr
  · exact hregs r hr

/-- So it is with SP after a push and a pop. -/
theorem ChangesOnly.restoredSP {regs : List Reg} {flags : List Flag} {stored : List Addr} {s t : State}
    (h : ChangesOnly regs flags stored s t) (honly : regs ⊆ [.sp]) (hsp : t.sp = s.sp) :
    ChangesOnly [] flags stored s t :=
  h.restored fun r hr => by
    obtain rfl : r = .sp := List.mem_singleton.mp (honly hr)
    exact hsp

/-- All eight flags of the status register (R15). -/
def allFlags : List Flag := [.c, .z, .i, .d, .b, .u, .v, .n]

theorem mem_allFlags (f : Flag) : f ∈ allFlags := by
  cases f <;> decide

/-! ## Primitive updates -/

section Primitive
variable (s : State)

theorem setSP_changesOnly (v : Byte) : ChangesOnly [.sp] [] [] s (s.setSP v) := by
  refine ⟨fun r hr => ?_, fun _ _ => rfl, fun _ _ => rfl, rfl, rfl⟩
  cases r with
  | sp => simp at hr
  | a | x | y => rfl

/-- No frame speaks of PC (R14). -/
theorem setPC_changesOnly (w : Addr) : ChangesOnly [] [] [] s (s.setPC w) :=
  ⟨fun r _ => by cases r <;> rfl, fun _ _ => rfl, fun _ _ => rfl, rfl, rfl⟩

theorem setFlag_changesOnly (f : Flag) (v : Bool) : ChangesOnly [] [f] [] s (s.setFlag f v) := by
  refine ⟨fun r _ => by cases r <;> rfl, fun g hg => ?_, fun _ _ => rfl, rfl, rfl⟩
  rw [State.flag_setFlag, if_neg (List.mem_singleton.not.mp hg)]

/-- A write of the whole status register changes nothing but flags (R15). -/
theorem setP_changesOnly (v : Byte) : ChangesOnly [] allFlags [] s (s.setP v) :=
  ⟨fun r _ => by cases r <;> rfl, fun f hf => absurd (mem_allFlags f) hf, fun _ _ => rfl, rfl, rfl⟩

/-- A push changes SP and the byte at the old SP (R94). -/
theorem push8_changesOnly (v : Byte) : ChangesOnly [.sp] [] [stackAddr s.sp] s (push8 v s) :=
  (writeByte_changesOnly v s (stackAddr s.sp)).trans (setSP_changesOnly _ _)

/-- A 16-bit push changes SP and the two bytes from the old SP down (R155, R206). -/
theorem push16_changesOnly (w : Addr) :
    ChangesOnly [.sp] [] [stackAddr s.sp, stackAddr (s.sp - 1)] s (push16 w s) :=
  ((push8_changesOnly s (highByte w)).trans (push8_changesOnly _ (lowByte w))).mono (by decide) (by decide)
    (List.Subset.refl _)

theorem pop8_changesOnly : ChangesOnly [.sp] [] [] s (pop8 s) :=
  setSP_changesOnly s _

theorem pop16_changesOnly : ChangesOnly [.sp] [] [] s (pop16 s) :=
  ((pop8_changesOnly s).trans (pop8_changesOnly _)).mono (by decide) (by decide) (by simp)

end Primitive

end Sys2Proof.Machine
end

section
/-! PROOFS. Arithmetic (R110, R111, R115): binary addition with its carry and its signed overflow, subtraction as
the addition of the complement, and BIT. -/

namespace Sys2Proof.Machine

/-! ## Addition in numbers -/

/-- Carry in and two bytes sum to at most 511, so the result is the sum modulo 256 (R110). -/
theorem addResult_toNat (acc data : Byte) (carry : Bool) :
    (addResult acc data carry).toNat = (acc.toNat + data.toNat + carry.toNat) % 256 :=
  BitVec.toNat_ofNat _ _

/-- Overflow is read off the three sign bits: the operands agree and the result differs from them (R110). -/
theorem addOverflow_eq_signs (acc data : Byte) (carry : Bool) :
    addOverflow acc data carry =
      ((acc.getLsbD 7 == data.getLsbD 7) && (acc.getLsbD 7 != (addResult acc data carry).getLsbD 7)) := by
  rw [addOverflow, show 0x80#8 = BitVec.twoPow 8 7 from rfl, BitVec.and_twoPow]
  simp only [BitVec.getLsbD_and, BitVec.getLsbD_not, BitVec.getLsbD_xor]
  generalize acc.getLsbD 7 = a, data.getLsbD 7 = d, (addResult acc data carry).getLsbD 7 = r
  revert a d r
  decide

/-- The signed value of a byte by its sign bit. -/
theorem toInt_eq_sub (v : Byte) : v.toInt = (v.toNat : Int) - if 128 ≤ v.toNat then 256 else 0 := by
  rw [BitVec.toInt_eq_toNat_cond]
  split <;> split <;> omega

/-- Overflow is set exactly when the signed sum leaves -128 to 127 (R110). -/
theorem addOverflow_iff (acc data : Byte) (carry : Bool) : addOverflow acc data carry = true ↔
    acc.toInt + data.toInt + (carry.toNat : Int) < -128 ∨ 127 < acc.toInt + data.toInt + (carry.toNat : Int) := by
  have hcarry : carry.toNat ≤ 1 := carry.toNat_le
  rw [addOverflow_eq_signs, toInt_eq_sub, toInt_eq_sub]
  simp only [getLsbD_seven_eq_decide, addResult_toNat, Bool.and_eq_true, beq_iff_eq, bne_iff_ne, ne_eq,
    decide_eq_decide]
  have := acc.isLt
  have := data.isLt
  split <;> split <;> omega

/-! ## The effect of an addition -/

theorem addToA_changesOnly (data : Byte) (s : State) :
    ChangesOnly [.a] [.c, .z, .v, .n] [] s (addToA data s) := by
  refine ⟨fun r hr => ?_, fun f hf => ?_, fun addr _ => ?_, addToA_run data s, addToA_inputs data s⟩
  · cases r with
    | a => simp at hr
    | x => exact addToA_x data s
    | y => exact addToA_y data s
    | sp => exact addToA_sp data s
  · obtain ⟨hc, hz, hv, hn⟩ : f ≠ .c ∧ f ≠ .z ∧ f ≠ .v ∧ f ≠ .n := by simpa using hf
    rw [flag_addToA, if_neg hc, if_neg hv, if_neg hz, if_neg hn]
  · rw [State.readByte, addToA_mem, State.readByte]

theorem addToA_zeroNegativeOf (data : Byte) (s : State) : ZeroNegativeOf (addToA data s).a (addToA data s) := by
  simp [ZeroNegativeOf, flag_addToA, isNegative]

/-- C is set exactly when the sum does not fit a byte (R110). -/
theorem flag_c_addToA (data : Byte) (s : State) :
    (addToA data s).flag .c = true ↔ 255 < s.a.toNat + data.toNat + (s.flag .c).toNat := by
  rw [flag_addToA, if_pos rfl]
  exact decide_eq_true_iff

/-- V is set exactly when the signed sum does not fit a byte (R110). -/
theorem flag_v_addToA (data : Byte) (s : State) : (addToA data s).flag .v = true ↔
    s.a.toInt + data.toInt + ((s.flag .c).toNat : Int) < -128 ∨
      127 < s.a.toInt + data.toInt + ((s.flag .c).toNat : Int) := by
  rw [flag_addToA]
  exact addOverflow_iff s.a data (s.flag .c)

/-- Settles O3: the effect of ADC is the addition of the operand. -/
theorem adcAddsInBinaryWithCarryAndSignedOverflow : Obligations.AdcAddsInBinaryWithCarryAndSignedOverflow := by
  intro i s h
  exact ⟨addToA (operandData i.operand s) s, exec_of_mnemonic h s, addResult_toNat _ _ _, flag_c_addToA _ s,
    flag_v_addToA _ s, addToA_zeroNegativeOf _ s, addToA_pc _ s, addToA_changesOnly _ s⟩

/-! ## Subtraction -/

/-- The complement of a byte is its distance from 0xFF (R111). -/
theorem complement_toNat (data : Byte) : (complement data).toNat = 255 - data.toNat := by
  have hnot : complement data = ~~~data := BitVec.xor_allOnes
  rw [hnot, BitVec.toNat_not]

/-- Read as a signed byte, the complement is -1 minus the byte (R111). -/
theorem complement_toInt (data : Byte) : (complement data).toInt = -1 - data.toInt := by
  have := data.isLt
  rw [toInt_eq_sub, toInt_eq_sub, complement_toNat]
  split <;> split <;> omega

/-- Settles O4: the effect of SBC is the addition of the operand's complement, which adds 255 minus the operand and
so subtracts the operand and the borrow modulo 256. -/
theorem sbcSubtractsInBinaryWithBorrowAndSignedOverflow :
    Obligations.SbcSubtractsInBinaryWithBorrowAndSignedOverflow := by
  intro i s h data borrow difference signed
  have hlt := data.isLt
  have hcarry : (s.flag .c).toNat ≤ 1 := (s.flag .c).toNat_le
  have hcomplement := complement_toNat data
  refine ⟨addToA (complement data) s, exec_of_mnemonic h s, ?_, ?_, ?_, addToA_zeroNegativeOf _ s, addToA_pc _ s,
    addToA_changesOnly _ s⟩
  · have hresult := addResult_toNat s.a (complement data) (s.flag .c)
    show ((addResult s.a (complement data) (s.flag .c)).toNat : Int) = difference % 256
    omega
  · refine (flag_c_addToA (complement data) s).trans ?_
    omega
  · refine (flag_v_addToA (complement data) s).trans ?_
    rw [complement_toInt]
    omega

/-! ## BIT -/

/-- Two bytes have no set bit in common exactly when their bitwise and is 0x00. -/
theorem isZero_and_iff (u v : Byte) : isZero (u &&& v) = true ↔ ∀ k, (u.getLsbD k && v.getLsbD k) = false := by
  rw [isZero_eq_true]
  constructor
  · intro h k
    rw [← BitVec.getLsbD_and, h, BitVec.getLsbD_zero]
  · intro h
    apply BitVec.eq_of_getLsbD_eq
    intro k _
    rw [BitVec.getLsbD_and, h, BitVec.getLsbD_zero]

theorem testBits_changesOnly (o : Operand) (s : State) : ChangesOnly [] [.z, .n, .v] [] s (testBits o s) :=
  ((setFlag_changesOnly s _ _).trans (setFlag_changesOnly _ _ _)).trans (setFlag_changesOnly _ _ _)

/-- Settles O6: the effect of BIT is three flag writes. -/
theorem bitTestsMemoryAgainstA : Obligations.BitTestsMemoryAgainstA := by
  intro i s h data
  refine ⟨_, exec_of_mnemonic h s, ?_, flag_testBits _ s .n, flag_testBits _ s .v, rfl, testBits_changesOnly _ s⟩
  exact (Bool.eq_iff_iff.mp (flag_testBits i.operand s .z)).trans (isZero_and_iff s.a data)

end Sys2Proof.Machine
end

section
/-! PROOFS. Rotates, compares of X and Y, and steps of X and Y (R122, R123, R131, R132, R135 to R138). -/

namespace Sys2Proof.Machine

/-! ## Rotates -/

/-- The carry that enters a rotate as a number. -/
theorem bitZero_toNat (carry : Bool) : (bitZero carry).toNat = carry.toNat := by
  cases carry <;> rfl

/-- ROL doubles, puts the old carry into the free bit 0 and shifts out bit 7 (R122). -/
theorem rotateLeft_eq_double (v : Byte) (carry : Bool) :
    rotateLeft v carry = ⟨BitVec.ofNat 8 (2 * v.toNat + carry.toNat), decide (128 ≤ v.toNat)⟩ := by
  have hresult : v <<< 1 ||| bitZero carry = BitVec.ofNat 8 (2 * v.toNat + carry.toNat) := by
    have hfree : 2 * v.toNat % 256 = (v.toNat % 128) <<< 1 := by
      rw [Nat.shiftLeft_eq]
      omega
    have hcarry : carry.toNat < 2 ^ 1 := carry.toNat_lt
    apply BitVec.eq_of_toNat_eq
    rw [BitVec.toNat_or, BitVec.toNat_shiftLeft, BitVec.toNat_ofNat, bitZero_toNat, Nat.shiftLeft_eq, Nat.pow_one,
      Nat.mul_comm, hfree, ← Nat.shiftLeft_add_eq_or_of_lt hcarry, ← hfree]
    omega
  rw [rotateLeft, hresult, getLsbD_seven_eq_decide]

/-- ROR halves, puts the old carry into the free bit 7 and shifts out bit 0 (R123). -/
theorem rotateRight_eq_half (v : Byte) (carry : Bool) :
    rotateRight v carry = ⟨BitVec.ofNat 8 (v.toNat / 2 + 128 * carry.toNat), decide (v.toNat % 2 = 1)⟩ := by
  have hresult : v >>> 1 ||| bitZero carry <<< 7 = BitVec.ofNat 8 (v.toNat / 2 + 128 * carry.toNat) := by
    have hhalf : v.toNat / 2 < 2 ^ 7 := by omega
    have htop : (bitZero carry <<< 7).toNat = carry.toNat <<< 7 := by cases carry <;> rfl
    have hcarry : carry.toNat ≤ 1 := carry.toNat_le
    apply BitVec.eq_of_toNat_eq
    rw [BitVec.toNat_or, BitVec.toNat_ushiftRight, htop, BitVec.toNat_ofNat, Nat.shiftRight_eq_div_pow, Nat.pow_one,
      Nat.or_comm, ← Nat.shiftLeft_add_eq_or_of_lt hhalf, Nat.shiftLeft_eq]
    omega
  rw [rotateRight, hresult, getLsbD_zero_eq_decide]

/-- Half of a byte leaves bit 7 to the carry, so N after a ROR is the old carry (R123). -/
theorem getLsbD_seven_half_add (v : Byte) (carry : Bool) :
    (BitVec.ofNat 8 (v.toNat / 2 + 128 * carry.toNat)).getLsbD 7 = carry := by
  rw [getLsbD_seven_eq_decide, BitVec.toNat_ofNat]
  cases carry
  · exact decide_eq_false (by simp; omega)
  · exact decide_eq_true (by simp; omega)

/-- Settles O8: ROL and ROR are the rotates of their operand, which double and halve around the carry. -/
theorem rotatesThreadTheCarry : Obligations.RotatesThreadTheCarry := by
  intro i s v cin
  refine ⟨fun h => ?_, fun h => ?_⟩
  · obtain ⟨t, hexec, hback, hc, hzn, hkept⟩ :=
      exec_shift (operand_shift i (by simp [h])) (exec_of_mnemonic h s) (rotateLeft_eq_double _ _)
    exact ⟨t, hexec, hback, hc ▸ decide_eq_true_iff, hzn, hkept⟩
  · obtain ⟨t, hexec, hback, hc, ⟨hz, hn⟩, hkept⟩ :=
      exec_shift (operand_shift i (by simp [h])) (exec_of_mnemonic h s) (rotateRight_eq_half _ _)
    have hncarry : t.flag .n = s.flag .c := hn.trans (getLsbD_seven_half_add _ _)
    exact ⟨t, hexec, hback, hc ▸ decide_eq_true_iff, ⟨hz, hn⟩, hncarry, hkept⟩

/-! ## Compares of X and Y -/

/-- An instruction whose effect is a compare of `reg` with `data` sets C, Z and N from the two bytes and changes
nothing else (R130 to R132). -/
theorem exec_compareWith {i : Instr} {s : State} {reg data : Byte}
    (hexec : exec i s = .next (compareWith reg data s)) :
    ∃ t, exec i s = .next t ∧ (t.flag .c = true ↔ data.toNat ≤ reg.toNat) ∧ (t.flag .z = true ↔ reg = data) ∧
      t.flag .n = (reg - data).getLsbD 7 ∧ t.pc = s.pc ∧ ChangesOnly [] [.c, .z, .n] [] s t :=
  ⟨_, hexec, flag_c_compareWith _ _ s, flag_z_compareWith _ _ s, flag_n_compareWith _ _ s, rfl,
    compareWith_changesOnly _ _ s⟩

/-- Settles O10: the effects of CPX and CPY are the compares of X and of Y. -/
theorem cpxCpyCompareTheirOwnRegister : Obligations.CpxCpyCompareTheirOwnRegister := by
  intro i s data
  exact ⟨fun h => exec_compareWith (exec_of_mnemonic h s), fun h => exec_compareWith (exec_of_mnemonic h s)⟩

/-! ## Steps of X and Y -/

/-- Settles O12: each of the four is a move of the register's successor or predecessor into the register. -/
theorem indexRegistersStepModulo256 : Obligations.IndexRegistersStepModulo256 := by
  intro s
  exact ⟨⟨_, exec_of_mnemonic rfl s, increment_toNat s.x, setZN_zeroNegativeOf _ _, rfl, moveToX_changesOnly _ s⟩,
    ⟨_, exec_of_mnemonic rfl s, increment_toNat s.y, setZN_zeroNegativeOf _ _, rfl, moveToY_changesOnly _ s⟩,
    ⟨_, exec_of_mnemonic rfl s, decrement_toNat s.x, setZN_zeroNegativeOf _ _, rfl, moveToX_changesOnly _ s⟩,
    ⟨_, exec_of_mnemonic rfl s, decrement_toNat s.y, setZN_zeroNegativeOf _ _, rfl, moveToY_changesOnly _ s⟩⟩

end Sys2Proof.Machine
end

section
/-! PROOFS. Branches, jumps, subroutine call and return, and the stack instructions (R145 to R156, R165 to R169):
what each leaves at the stack slots it names, and its frame. -/

namespace Sys2Proof.Machine

/-! ## Branches and jumps -/

/-- A displacement widened to 16 bits is the signed byte modulo 65,536 (R62, R89). -/
theorem signExtend16_toNat (b : Byte) : ((signExtend16 b).toNat : Int) = b.toInt % 65536 := by
  have hlt := b.isLt
  have hwide : (b.setWidth 16).toNat = b.toNat := BitVec.toNat_setWidth_of_le (by decide)
  have hor : (b.setWidth 16 ||| 0xFF00#16).toNat = 0xFF00 + b.toNat := by
    rw [BitVec.toNat_or, hwide, Nat.or_comm]
    exact (Nat.shiftLeft_add_eq_or_of_lt hlt 0xFF).symm
  rw [signExtend16, toInt_eq_sub, getLsbD_seven_eq_decide]
  by_cases hneg : 128 ≤ b.toNat
  · rw [if_pos hneg, if_pos (decide_eq_true hneg), hor]
    omega
  · rw [if_neg hneg, if_neg (by simpa using hneg), hwide]
    omega

/-- A taken branch goes to PC plus the signed displacement, modulo 65,536 (R89, R145). -/
theorem branchTarget_toNat (rel8 : Byte) (s : State) :
    ((branchTarget rel8 s).toNat : Int) = ((s.pc.toNat : Int) + rel8.toInt) % 65536 := by
  have hext := signExtend16_toNat rel8
  rw [branchTarget, BitVec.toNat_add]
  omega

theorem branchIf_changesOnly (f : Flag) (e : Bool) (rel8 : Byte) (s : State) :
    ChangesOnly [] [] [] s (branchIf f e rel8 s) := by
  unfold branchIf
  split
  · exact setPC_changesOnly s _
  · exact ChangesOnly.refl s

/-- An instruction whose effect is a branch on a flag does what R145 says of it. -/
theorem branchesExactlyWhen {branch : Byte → Instr} {f : Flag} {e : Bool}
    (hexec : ∀ rel8 s, exec (branch rel8) s = .next (branchIf f e rel8 s)) : BranchesExactlyWhen branch f e := by
  intro rel8 s
  obtain ⟨htaken, hnot⟩ := branchIf_spec f e rel8 s
  refine ⟨_, hexec rel8 s, fun h => ?_, fun h => ?_, branchIf_changesOnly f e rel8 s⟩
  · rw [htaken h]
    exact branchTarget_toNat rel8 s
  · rw [hnot h]

/-- Settles O13: each mnemonic's effect is the branch on its flag. -/
theorem branchesTestTheirFlag : Obligations.BranchesTestTheirFlag :=
  ⟨branchesExactlyWhen fun _ => exec_of_mnemonic rfl, branchesExactlyWhen fun _ => exec_of_mnemonic rfl,
    branchesExactlyWhen fun _ => exec_of_mnemonic rfl, branchesExactlyWhen fun _ => exec_of_mnemonic rfl,
    branchesExactlyWhen fun _ => exec_of_mnemonic rfl, branchesExactlyWhen fun _ => exec_of_mnemonic rfl,
    branchesExactlyWhen fun _ => exec_of_mnemonic rfl, branchesExactlyWhen fun _ => exec_of_mnemonic rfl⟩

/-- The address after `w`, modulo 65,536. -/
theorem ofNat_succ_addr (w : Addr) : BitVec.ofNat 16 ((w.toNat + 1) % 65536) = w + 1 := by
  apply BitVec.eq_of_toNat_eq
  simp [BitVec.toNat_add]

/-- The word at an address is little-endian (R44). -/
theorem readWord_toNat (s : State) (w : Addr) : (s.readWord w).toNat =
    (s.readByte w).toNat + 256 * (s.readByte (BitVec.ofNat 16 ((w.toNat + 1) % 65536))).toNat := by
  rw [ofNat_succ_addr, State.readWord, joinBytes_toNat, Nat.mul_comm, Nat.add_comm]

/-- Settles O14: both forms set PC to the effective address. -/
theorem jumpsSetThePC : Obligations.JumpsSetThePC := by
  intro w s
  exact ⟨⟨_, exec_of_mnemonic rfl s, rfl, setPC_changesOnly s w⟩,
    ⟨_, exec_of_mnemonic rfl s, readWord_toNat s w, setPC_changesOnly s _⟩⟩

/-! ## Stack slots -/

/-- Two steps down are one step of 2. -/
theorem sub_one_sub_one (sp : Byte) : sp - 1 - 1 = sp - 2 := by
  rw [sub_sub]
  rfl

theorem add_one_add_one (sp : Byte) : sp + 1 + 1 = sp + 2 := by
  rw [add_assoc]
  rfl

/-- A byte and its predecessor differ, so neighbouring stack slots do. -/
theorem ne_sub_one (sp : Byte) : sp ≠ sp - 1 := by
  bv_omega

/-! ## Call and return -/

theorem callSubroutine_changesOnly (target : Addr) (s : State) :
    ChangesOnly [.sp] [] [stackAddr s.sp, stackAddr (s.sp - 1)] s (callSubroutine target s) :=
  ((push16_changesOnly s (s.pc - 1)).trans (setPC_changesOnly _ target)).mono (by decide) (by decide) (by simp)

theorem returnFromSubroutine_changesOnly (s : State) : ChangesOnly [.sp] [] [] s (returnFromSubroutine s) :=
  (pop16_changesOnly s).trans (setPC_changesOnly _ _)

/-- Settles O15: a call is a 16-bit push of PC - 1, high byte at the old SP and low byte below it. -/
theorem jsrPushesReturnAddressMinusOne : Obligations.JsrPushesReturnAddressMinusOne := by
  intro target s
  have hslots : stackAddr s.sp ≠ stackAddr (s.sp - 1) := (stackAddr_inj _ _).not.mpr (ne_sub_one s.sp)
  refine ⟨_, exec_of_mnemonic rfl s, ?_, ?_, sub_one_sub_one s.sp, rfl, callSubroutine_changesOnly target s⟩
  · refine (congrArg BitVec.toNat (readByte_callSubroutine target s _)).trans ?_
    rw [if_neg hslots, if_pos rfl, highByte_toNat]
  · refine (congrArg BitVec.toNat (readByte_callSubroutine target s _)).trans ?_
    rw [if_pos rfl, lowByte_toNat]

/-- Settles O16: a return is a 16-bit pop into PC, plus 1. -/
theorem rtsReturnsToThePulledAddressPlusOne : Obligations.RtsReturnsToThePulledAddressPlusOne := by
  intro s
  refine ⟨_, exec_of_mnemonic rfl s, ?_, add_one_add_one s.sp, returnFromSubroutine_changesOnly s⟩
  show (popped16 s + 1).toNat = _
  rw [popped16_spec, BitVec.toNat_add, joinBytes_toNat, add_one_add_one]
  simp
  omega

/-- A call then a return comes back to PC with SP as before (R155, R156). -/
theorem returnFromSubroutine_callSubroutine (target : Addr) (s : State) :
    (returnFromSubroutine (callSubroutine target s)).pc = s.pc ∧
    (returnFromSubroutine (callSubroutine target s)).sp = s.sp := by
  obtain ⟨hword, hsp⟩ := popped16_push16 (s.pc - 1) s
  refine ⟨?_, hsp⟩
  calc (returnFromSubroutine (callSubroutine target s)).pc
      = popped16 (push16 (s.pc - 1) s) + 1 := rfl
    _ = s.pc := by rw [hword]; exact BitVec.sub_add_cancel s.pc 1

/-- Settles O17: the 16-bit pop returns what the 16-bit push stored. -/
theorem jsrThenRtsComesBack : Obligations.JsrThenRtsComesBack := by
  intro target s
  obtain ⟨hpc, hsp⟩ := returnFromSubroutine_callSubroutine target s
  have hframe := (callSubroutine_changesOnly target s).trans
    (returnFromSubroutine_changesOnly (callSubroutine target s))
  exact ⟨_, _, exec_of_mnemonic rfl s, exec_of_mnemonic rfl _, rfl, hpc,
    (hframe.restoredSP (by decide) hsp).mono (by decide) (by decide) (by simp)⟩

/-! ## Stack instructions -/

/-- Settles O24: a push is one write at the stack address, a pop one read, and SP is a byte. -/
theorem stackStaysInPageOneAndWraps : Obligations.StackStaysInPageOneAndWraps := by
  intro v s
  refine ⟨stackAddr_toNat s.sp, decrement_toNat s.sp, fun addr => ?_, increment_toNat s.sp, fun addr haddr => ?_⟩
  · simp only [readByte_push8, ← addr_toNat_eq, stackAddr_toNat]
  · have hslot : addr = stackAddr (s.sp + 1) := by
      rw [← addr_toNat_eq, haddr, stackAddr_toNat, BitVec.toNat_add]
      rfl
    rw [hslot, popped8_spec]

/-- Settles O18: the effect of PHA is a push of A. -/
theorem phaPushesA : Obligations.PhaPushesA := by
  intro s
  exact ⟨_, exec_of_mnemonic rfl s, State.readByte_writeByte_same s _ _, rfl, rfl, push8_changesOnly s s.a⟩

/-- The frame of PLA: a pop and a move into A. -/
theorem pullA_changesOnly (s : State) :
    ChangesOnly [.a, .sp] [.z, .n] [] s (moveToA (popped8 s) (pop8 s)) :=
  ((pop8_changesOnly s).trans (moveToA_changesOnly _ (pop8 s))).mono (by decide) (by decide) (by simp)

/-- Settles O20: the effect of PLA is a pop moved into A. -/
theorem plaPullsAAndSetsZeroNegative : Obligations.PlaPullsAAndSetsZeroNegative := by
  intro s
  exact ⟨_, exec_of_mnemonic rfl s, popped8_spec s, rfl, setZN_zeroNegativeOf _ _, rfl, pullA_changesOnly s⟩

theorem pushStatus_changesOnly (s : State) : ChangesOnly [.sp] [.b, .u] [stackAddr s.sp] s (pushStatus s) :=
  ((push8_changesOnly s _).trans (setFlag_changesOnly _ .b false)).trans (setFlag_changesOnly _ .u false)

/-- PHP clears the live Break and Unused and keeps the other flags (R166). -/
theorem flag_pushStatus (s : State) (f : Flag) :
    (pushStatus s).flag f = if f = .b ∨ f = .u then false else s.flag f := by
  cases f <;> simp [pushStatus]

/-- Settles O19: the stacked copy is the status with both bits set, and then both live bits are cleared. -/
theorem phpPushesStatusAndClearsLiveBreakUnused : Obligations.PhpPushesStatusAndClearsLiveBreakUnused := by
  intro s
  refine ⟨_, exec_of_mnemonic rfl s, fun f => ?_, rfl, flag_pushStatus s .b, flag_pushStatus s .u, rfl,
    pushStatus_changesOnly s⟩
  refine (congrArg (getFlag f) (readByte_pushStatus s _)).trans ?_
  rw [if_pos rfl, getFlag_or_breakUnused]
  rfl

theorem pushStatus_pc (s : State) : (pushStatus s).pc = s.pc := by
  rw [pushStatus_spec]

theorem pullStatus_pc (s : State) : (pullStatus s).pc = s.pc := by
  rw [pullStatus_spec]

/-- PLP takes every flag but Unused from the pulled byte (R168). -/
theorem flag_pullStatus (s : State) (f : Flag) :
    (pullStatus s).flag f = if f = .u then true else getFlag f (popped8 s) := by
  rw [pullStatus, State.flag_setFlag, State.setP_flag]

theorem pullStatus_changesOnly (s : State) : ChangesOnly [.sp] allFlags [] s (pullStatus s) :=
  (((pop8_changesOnly s).trans (setP_changesOnly _ (popped8 s))).trans (setFlag_changesOnly _ .u true)).mono
    (by decide) (by decide) (by decide)

/-- Settles O21: the effect of PLP is a pop into P with Unused set. -/
theorem plpPullsStatusWithUnusedSet : Obligations.PlpPullsStatusWithUnusedSet := by
  intro s
  obtain ⟨hregs, -, hmem, hsession⟩ := pullStatus_changesOnly s
  exact ⟨_, exec_of_mnemonic rfl s, flag_pullStatus s, rfl, rfl, hregs, hmem, hsession⟩

/-- RTI takes every flag but Break and Unused, which it clears, from the pulled byte (R169). -/
theorem flag_interruptReturn (s : State) (f : Flag) :
    (interruptReturn s).flag f = if f = .b ∨ f = .u then false else getFlag f (popped8 s) := by
  refine (getFlag_returnStatus f (popped8 s)).trans ?_
  cases f <;> rfl

theorem interruptReturn_changesOnly (s : State) : ChangesOnly [.sp] allFlags [] s (interruptReturn s) :=
  (((pop8_changesOnly s).trans (setP_changesOnly _ _)).trans
    ((pop16_changesOnly _).trans (setPC_changesOnly _ _))).mono (by decide) (by decide) (by decide)

theorem add_one_three_times (sp : Byte) : sp + 1 + 1 + 1 = sp + 3 := by
  rw [add_one_add_one, add_assoc]
  rfl

/-- Settles O22: the effect of RTI is a pop into P and a 16-bit pop into PC. -/
theorem rtiRestoresStatusAndPC : Obligations.RtiRestoresStatusAndPC := by
  intro s
  obtain ⟨hregs, -, hmem, hsession⟩ := interruptReturn_changesOnly s
  refine ⟨_, exec_of_mnemonic rfl s, flag_interruptReturn s, ?_, add_one_three_times s.sp, hregs, hmem, hsession⟩
  show (popped16 (pop8 s)).toNat = _
  rw [popped16_spec, joinBytes_toNat, pop8_sp, add_one_three_times, add_one_add_one, Nat.mul_comm, Nat.add_comm]
  rfl

/-- PHA then PLA: the pop returns the byte of A that was pushed, so A is moved into itself (R165, R167). -/
theorem pha_then_pla (s : State) : ∃ t u, exec .pha s = .next t ∧ exec .pla t = .next u ∧ u.a = s.a ∧
    ZeroNegativeOf s.a u ∧ u.pc = s.pc ∧ ChangesOnly [] [.z, .n] [stackAddr s.sp] s u := by
  obtain ⟨hbyte, hsp⟩ := popped8_push8 s.a s
  have hframe := (push8_changesOnly s s.a).trans (pullA_changesOnly (push8 s.a s))
  rw [hbyte] at hframe
  refine ⟨push8 s.a s, moveToA (popped8 (push8 s.a s)) (pop8 (push8 s.a s)), exec_of_mnemonic rfl s,
    exec_of_mnemonic rfl _, hbyte, ?_, rfl, ?_⟩
  · rw [hbyte]
    exact setZN_zeroNegativeOf _ _
  · rw [hbyte]
    refine hframe.restored fun r hr => ?_
    cases r with
    | a => exact setZN_a _ _
    | sp => exact hsp
    | x | y => simp at hr

/-- PHP then PLP: the pull gives every flag but Break and Unused back and sets these two, whose stacked copies are
set (R166, R168). -/
theorem php_then_plp (s : State) : ∃ t u, exec .php s = .next t ∧ exec .plp t = .next u ∧ u.flag .b = true ∧
    u.flag .u = true ∧ u.pc = s.pc ∧ ChangesOnly [] [.b, .u] [stackAddr s.sp] s u := by
  obtain ⟨hbyte, hsp⟩ := popped8_push8 (s.p ||| 0x30#8) s
  have hflags : ∀ f, (pullStatus (pushStatus s)).flag f = if f = .b ∨ f = .u then true else s.flag f := by
    intro f
    have hpulled : popped8 (pushStatus s) = s.p ||| 0x30#8 := hbyte
    rw [flag_pullStatus, hpulled, getFlag_or_breakUnused]
    cases f <;> rfl
  obtain ⟨hregs, -, hmem, hsession⟩ :=
    ((pushStatus_changesOnly s).trans (pullStatus_changesOnly (pushStatus s))).restoredSP (by decide) hsp
  refine ⟨pushStatus s, pullStatus (pushStatus s), exec_of_mnemonic rfl s, exec_of_mnemonic rfl _, hflags .b,
    hflags .u, (pullStatus_pc _).trans (pushStatus_pc s), hregs, fun f hf => ?_, hmem, hsession⟩
  refine (hflags f).trans (if_neg ?_)
  simpa using hf

/-- Settles O23: a pull straight after a push reads the byte the push wrote. -/
theorem pushThenPullRestores : Obligations.PushThenPullRestores :=
  fun s => ⟨pha_then_pla s, php_then_plp s⟩

/-! ## Flag instructions, transfers and BRK -/

/-- An instruction whose effect is the write of one flag changes that flag alone (R175 to R181). -/
theorem writesOneFlag {i : Instr} {f : Flag} {v : Bool} (hexec : ∀ s, exec i s = .next (s.setFlag f v)) :
    WritesOneFlag i f v := by
  intro s
  refine ⟨_, hexec s, ?_, rfl, setFlag_changesOnly s f v⟩
  rw [State.flag_setFlag, if_pos rfl]

/-- Settles O25: each of the seven is the write of its flag. -/
theorem flagInstructionsWriteOneFlag : Obligations.FlagInstructionsWriteOneFlag :=
  ⟨writesOneFlag (exec_of_mnemonic rfl), writesOneFlag (exec_of_mnemonic rfl), writesOneFlag (exec_of_mnemonic rfl),
    writesOneFlag (exec_of_mnemonic rfl), writesOneFlag (exec_of_mnemonic rfl), writesOneFlag (exec_of_mnemonic rfl),
    writesOneFlag (exec_of_mnemonic rfl)⟩

/-- Settles O26: a transfer is a move of the source register; TXS is the bare write of SP. -/
theorem transfersCopyRegisters : Obligations.TransfersCopyRegisters :=
  ⟨fun s => ⟨_, exec_of_mnemonic rfl s, rfl, setZN_zeroNegativeOf _ _, rfl, moveToX_changesOnly s.a s⟩,
    fun s => ⟨_, exec_of_mnemonic rfl s, rfl, setZN_zeroNegativeOf _ _, rfl, moveToY_changesOnly s.a s⟩,
    fun s => ⟨_, exec_of_mnemonic rfl s, rfl, setZN_zeroNegativeOf _ _, rfl, moveToA_changesOnly s.x s⟩,
    fun s => ⟨_, exec_of_mnemonic rfl s, rfl, setZN_zeroNegativeOf _ _, rfl, moveToA_changesOnly s.y s⟩,
    fun s => ⟨_, exec_of_mnemonic rfl s, rfl, setZN_zeroNegativeOf _ _, rfl, moveToX_changesOnly s.sp s⟩,
    fun s => ⟨_, exec_of_mnemonic rfl s, rfl, rfl, setSP_changesOnly s s.x⟩⟩

/-- Settles O27: BRK has the effect of its operation, the write of the run state alone. -/
theorem brkHalts : Obligations.BrkHalts := by
  intro s
  calc exec .brk s
      = .next (effect .brk Instr.brk.operand s) := exec_of_mnemonic rfl s
    _ = .next { s with run := .halted } := rfl

end Sys2Proof.Machine
end

section
/-! PROOFS. The memory port and the remaining addressing modes (R41, R43, R81, R82, R86 to R92). -/

namespace Sys2Proof.Machine

/-! ## The memory port -/

/-- Writing back the byte that is there leaves a canonical memory as it was: both lists read alike (R41, Log 4). -/
theorem Memory.write_read_self (m : Memory) (a : Nat) (ha : a < 65536) (h : m.wf = true) :
    m.write a (m.read a) = m := by
  refine Memory.ext_of_wf _ _ (Memory.write_wf m a _ ha h) h fun b => ?_
  rw [Memory.read_write]
  split
  · next hb => rw [hb]
  · rfl

/-- Settles O29: a write is the write of one byte of the memory list. -/
theorem memoryReadsBackWhatWasWritten : Obligations.MemoryReadsBackWhatWasWritten := by
  intro s a v
  refine ⟨fun b => State.readByte_writeByte s a b v, rfl, rfl, fun h => ?_⟩
  have hmem := Memory.write_read_self s.mem a.toNat a.isLt h
  exact congrArg (fun m => { s with mem := m }) hmem

/-! ## Absolute and indirect modes -/

/-- A byte added to a 16-bit base carries into the high byte and wraps at 65,536 (R87, R88). -/
theorem add_setWidth_toNat (w : Addr) (index : Byte) :
    (w + index.setWidth 16).toNat = (w.toNat + index.toNat) % 65536 := by
  rw [BitVec.toNat_add, BitVec.toNat_setWidth_of_le (by decide)]

/-- Settles O31: the plain mode is its operand, the indexed ones add the register to it. -/
theorem absoluteModesAddSixteenBits : Obligations.AbsoluteModesAddSixteenBits := by
  intro w s
  exact ⟨rfl, add_setWidth_toNat w s.x, add_setWidth_toNat w s.y, operandData_mem (.absolute w) s,
    operandData_mem (.absoluteX w) s, operandData_mem (.absoluteY w) s⟩

/-- A zero-page location by its number: the sum of operand and index modulo 256 (R84). -/
theorem zeroPageAddr_eq_ofNat (b : Byte) (n : Nat) (h : b.toNat = n % 256) :
    zeroPageAddr b = BitVec.ofNat 16 (n % 256) := by
  apply BitVec.eq_of_toNat_eq
  rw [zeroPageAddr_toNat, h, BitVec.toNat_ofNat]
  omega

/-- The pointer at an indexed zero-page location: the high byte at the next location modulo 256 (R91, R92, D10). -/
theorem zeroPagePointer_toNat (s : State) (b index : Byte) : (s.zeroPagePointer (b + index)).toNat =
    (s.readByte (BitVec.ofNat 16 ((b.toNat + index.toNat) % 256))).toNat +
      256 * (s.readByte (BitVec.ofNat 16 ((b.toNat + index.toNat + 1) % 256))).toNat := by
  have hlow : (b + index).toNat = (b.toNat + index.toNat) % 256 := BitVec.toNat_add b index
  have hhigh : (b + index + 1).toNat = (b.toNat + index.toNat + 1) % 256 := by
    rw [BitVec.toNat_add, hlow]
    exact Nat.mod_add_mod _ _ _
  rw [State.zeroPagePointer, joinBytes_toNat, zeroPageAddr_eq_ofNat _ _ hlow, zeroPageAddr_eq_ofNat _ _ hhigh,
    Nat.mul_comm, Nat.add_comm]

/-- Settles O32: the absolute pointer is a word of memory, the indexed ones are zero-page pointers. -/
theorem indirectModesReadPointers : Obligations.IndirectModesReadPointers := by
  intro w zp8 s
  exact ⟨readWord_toNat s w, zeroPagePointer_toNat s zp8 s.x, zeroPagePointer_toNat s zp8 s.y,
    operandData_mem (.indirect w) s, operandData_mem (.indirectX zp8) s, operandData_mem (.indirectY zp8) s⟩

/-! ## Operands without an effective address -/

/-- What a fetch decodes to has its own bytes at PC (R60, R93). -/
theorem fetchBytes_of_decode {s : State} {i : Instr} {rest : List Byte}
    (h : decode (fetchBytes s) = .ok (i, rest)) : i.opcode :: (i.operand.bytes ++ rest) =
      [s.readByte s.pc, s.readByte (s.pc + 1), s.readByte (s.pc + 2)] :=
  encodeUndoesDecode (fetchBytes s) rest i h

/-- Settles O33: an immediate operand is the second byte of the fetch, and PC past the instruction is two above. -/
theorem impliedImmediateRelativeOperands : Obligations.ImpliedImmediateRelativeOperands := by
  intro b s
  refine ⟨rfl, rfl, rfl, rfl, fun i rest hdecode hoperand => ?_⟩
  have hbytes := fetchBytes_of_decode hdecode
  rw [hoperand] at hbytes
  obtain ⟨-, hbyte, -⟩ : i.opcode = s.readByte s.pc ∧ b = s.readByte (s.pc + 1) ∧
      rest = [s.readByte (s.pc + 2)] := by
    simpa [Operand.bytes] using hbytes
  have hlength : i.length = 2 := by
    rw [i.length_eq, hoperand]
    rfl
  have haddress : (pastInstr i s).pc - 1 = s.pc + 1 := by
    rw [pastInstr, hlength, State.setPC_pc, add_sub_assoc]
    rfl
  rw [hoperand]
  exact ⟨rfl, congrArg some haddress, hbyte.symm⟩

end Sys2Proof.Machine
end

section
/-! PROOFS. The step (R80, R97, R201 to R203): the instruction it runs, the fault of an illegal opcode, and how the
run state changes. -/

namespace Sys2Proof.Machine

/-! ## The decoded instruction -/

/-- A step that meets an instruction is its meaning, with PC past it and the action used up (R80, R97). -/
theorem step_decoded {s : State} {later : List Event} {i : Instr} {rest : List Byte} (hrun : s.run = .running)
    (hdue : StepDue s later) (hdecode : decode (fetchBytes s) = .ok (i, rest)) :
    step s = exec i (pastInstr i (s.setInputs later)) := by
  rw [step_of_stepDue s later hdue]
  exact instructionStep_decoded exec (s.setInputs later) i rest hrun hdecode

/-- Settles O34: it is the step's equation for a decoded instruction. -/
theorem stepRunsTheDecodedInstruction : Obligations.StepRunsTheDecodedInstruction :=
  fun _ _ _ _ hrun hdue hdecode => step_decoded hrun hdue hdecode

/-- Every instruction answers a next state, by the effect of its operation; a step answers one by the effect of an
instruction, a fault record or an action of the environment (R25, R80, R200). -/
theorem step_total (s : State) : ∃ t, step s = .next t := by
  obtain ⟨rest, hdue⟩ | ⟨rest, hirq | hnmi | hreset | ⟨a, v, hwrite⟩⟩ := due_cases s
  · by_cases hrun : s.run = .running
    · cases hdecode : decode (fetchBytes s) with
      | ok decoded =>
        obtain ⟨i, after⟩ := decoded
        exact ⟨_, (step_decoded hrun hdue hdecode).trans (exec_eq_effect _ _)⟩
      | error e =>
        rw [step_of_stepDue s rest hdue]
        exact ⟨_, instructionStep_illegal exec (s.setInputs rest) hrun (decode_fetch_error s e hdecode)⟩
    · rw [step_of_stepDue s rest hdue]
      exact ⟨_, instructionStep_stopped exec (s.setInputs rest) hrun⟩
  · exact ⟨_, step_of_irq s rest hirq⟩
  · exact ⟨_, step_of_nmi s rest hnmi⟩
  · exact ⟨_, step_of_reset s rest hreset⟩
  · exact ⟨_, step_of_write s rest a v hwrite⟩

/-- Settles O43: an instruction answers its effect, and a step one of the results listed above. -/
theorem everyInstructionAndEveryStepAnswersANextState :
    Obligations.EveryInstructionAndEveryStepAnswersANextState :=
  ⟨fun i s => ⟨_, exec_eq_effect i s⟩, step_total⟩

/-! ## The program-counter law -/

/-- PC past an instruction is the opcode's address plus 1 plus the operand bytes, modulo 65,536 (R93, R97). -/
theorem pastInstr_pc_toNat (i : Instr) (s : State) :
    (pastInstr i s).pc.toNat = (s.pc.toNat + 1 + i.operand.mode.operandBytes) % 65536 := by
  rw [pastInstr, State.setPC_pc, i.length_eq, BitVec.toNat_add, BitVec.toNat_ofNat, Nat.add_mod_mod, Nat.add_assoc]

/-- A branch whose flag does not have the expected value leaves the state alone (R145). -/
theorem branchAt_not_taken {f : Flag} {e : Bool} {s : State} (h : s.flag f ≠ e) (o : Operand) :
    branchAt f e o s = s := by
  cases o with
  | relative rel8 => exact (branchIf_spec f e rel8 s).2 h
  | implied | immediate | mem => rfl

/-- Only jumps, calls, returns and taken branches write PC (R97). -/
theorem effect_pc {m : Mnemonic} (o : Operand) {s : State} (hjump : m ∉ [.jmp, .jsr, .rts, .rti])
    (hbranch : ∀ f e, branchCondition m = some (f, e) → s.flag f ≠ e) : (effect m o s).pc = s.pc := by
  cases m
  case jmp | jsr | rts | rti => exact absurd hjump (by decide)
  case bcc | bcs | beq | bne | bmi | bpl | bvc | bvs =>
    exact congrArg State.pc (branchAt_not_taken (hbranch _ _ rfl) o)
  case adc | sbc => exact addToA_pc _ s
  case sta | stx | sty | inc | dec | asl | lsr | rol | ror => cases o <;> rfl
  all_goals rfl

/-- Settles O35: the handler starts at PC past the instruction, and its effect leaves PC there. -/
theorem stepAdvancesPCByTheInstructionLength : Obligations.StepAdvancesPCByTheInstructionLength := by
  intro s later i rest hrun hdue hdecode past
  have hstep := step_decoded hrun hdue hdecode
  have hpast := pastInstr_pc_toNat i (s.setInputs later)
  refine ⟨_, _, hstep, hstep.trans (exec_eq_effect _ _), hpast, fun hjump hbranch => ?_⟩
  have hkept := effect_pc (s := pastInstr i (s.setInputs later)) i.operand hjump hbranch
  exact (congrArg BitVec.toNat hkept).trans hpast

/-! ## Illegal opcodes -/

/-- A step at a byte with no table entry records it and its address and does nothing else (R201, D20). -/
theorem step_illegal {s : State} {later : List Event} (hrun : s.run = .running) (hdue : StepDue s later)
    (hform : formOf (s.readByte s.pc) = none) :
    step s = .next (raiseFault (.illegalOpcode (s.readByte s.pc) s.pc) (s.setInputs later)) := by
  rw [step_of_stepDue s later hdue]
  exact instructionStep_illegal exec (s.setInputs later) hrun hform

/-- The opcode of a fetched instruction is the byte at PC (R60, R93). -/
theorem opcode_of_fetch {s : State} {i : Instr} {rest : List Byte} (h : decode (fetchBytes s) = .ok (i, rest)) :
    i.opcode = s.readByte s.pc :=
  (opcode_of_decode _ _ _ _ h).1

/-- Settles O36: the listed bytes are those without a table entry, and any other byte decodes. -/
theorem illegalOpcodeFaultsAndChangesNothingElse : Obligations.IllegalOpcodeFaultsAndChangesNothingElse := by
  intro s later hrun hdue
  rw [← formOf_eq_none_iff]
  refine ⟨fun hform => step_illegal hrun hdue hform, fun hform => ?_⟩
  cases hdecode : decode (fetchBytes s) with
  | ok decoded => exact ⟨decoded.1, decoded.2, rfl, opcode_of_fetch hdecode⟩
  | error e => exact absurd (decode_fetch_error s e hdecode) hform

/-! ## Stopped states -/

theorem offerIrq_stopped {s : State} (h : s.run ≠ .running) : offerIrq s = s := by
  cases hrun : s.run with
  | running => exact absurd hrun h
  | halted | faulted => simp only [offerIrq, hrun]

theorem offerNmi_stopped {s : State} (h : s.run ≠ .running) : offerNmi s = s := by
  cases hrun : s.run with
  | running => exact absurd hrun h
  | halted | faulted => simp only [offerNmi, hrun]

/-- Settles O37: a step and an interrupt leave a stopped state alone, and a reset sets it running. -/
theorem onlyResetLeavesHaltedOrFaulted : Obligations.OnlyResetLeavesHaltedOrFaulted := by
  intro s later hstopped
  have hstopped' : (s.setInputs later).run ≠ .running := hstopped
  refine ⟨?_, fun hreset => ⟨_, step_of_reset s later hreset, rfl⟩⟩
  rintro (hdue | hirq | hnmi)
  · rw [step_of_stepDue s later hdue, instructionStep_stopped exec _ hstopped']
    rfl
  · rw [step_of_irq s later hirq, offerIrq_stopped hstopped']
    rfl
  · rw [step_of_nmi s later hnmi, offerNmi_stopped hstopped']
    rfl

theorem StepDue.subset {s : State} {rest : List Event} (h : StepDue s rest) : rest ⊆ s.inputs := by
  obtain h | ⟨-, rfl⟩ := h
  · exact h ▸ List.subset_cons_self _ _
  · exact List.nil_subset _

/-- Without a reset, a step of a stopped state uses an action up and does no more than write a byte (R25, R212). -/
theorem step_stopped {s t : State} (hstopped : s.run ≠ .running) (hreset : .reset ∉ s.inputs)
    (hstep : step s = .next t) : t.snapshot = s.snapshot ∧ t.inputs ⊆ s.inputs := by
  have hidle : ∀ rest, rest ⊆ s.inputs → StepDue s rest ∨ s.inputs = .irq :: rest ∨ s.inputs = .nmi :: rest →
      t.snapshot = s.snapshot ∧ t.inputs ⊆ s.inputs := by
    intro rest hsubset hdue
    have hnext := hstep.symm.trans ((onlyResetLeavesHaltedOrFaulted s rest hstopped).1 hdue)
    injection hnext with hnext
    rw [hnext]
    exact ⟨rfl, hsubset⟩
  obtain ⟨rest, h⟩ | ⟨rest, h | h | h | ⟨a, v, h⟩⟩ := due_cases s
  · exact hidle rest h.subset (.inl h)
  · exact hidle rest (h ▸ List.subset_cons_self _ _) (.inr (.inl h))
  · exact hidle rest (h ▸ List.subset_cons_self _ _) (.inr (.inr h))
  · exact absurd (h ▸ List.mem_cons_self) hreset
  · have hnext := hstep.symm.trans (step_of_write s rest a v h)
    injection hnext with hnext
    rw [hnext]
    exact ⟨rfl, h ▸ List.subset_cons_self _ _⟩

/-- Settles O38: the snapshot and the absence of a reset are kept along every session, and a snapshot of a halted
state holds no fault. -/
theorem haltedAndFaultedLastUntilReset : Obligations.HaltedAndFaultedLastUntilReset := by
  intro s hstopped hreset
  have hkept : ∀ t, Reaches s t → t.snapshot = s.snapshot ∧ .reset ∉ t.inputs := by
    intro t hreach
    refine reaches_induction (fun t => t.snapshot = s.snapshot ∧ .reset ∉ t.inputs) ?_ s t hreach ⟨rfl, hreset⟩
    rintro t u ⟨hsnapshot, hreset⟩ hstep
    have hrun : t.run = s.run := congrArg Snapshot.run hsnapshot
    obtain ⟨hsnapshot', hsubset⟩ := step_stopped (hrun ▸ hstopped) hreset hstep
    exact ⟨hsnapshot'.trans hsnapshot, fun hmem => hreset (hsubset hmem)⟩
  refine ⟨fun t hreach => (hkept t hreach).1, fun hhalted t hreach => ?_⟩
  rintro ⟨f, hfaulted⟩
  have hrun : t.run = s.run := congrArg Snapshot.run (hkept t hreach).1
  have hcontra : RunState.faulted f = .halted := hfaulted.symm.trans (hrun.trans hhalted)
  cases hcontra

/-! ## How the run state changes -/

theorem offerIrq_run (s : State) : (offerIrq s).run = s.run := by
  by_cases hrun : s.run = .running
  · simp only [offerIrq, hrun]
    split
    · exact hrun
    · exact (interruptEntry_run _ s).trans hrun
  · rw [offerIrq_stopped hrun]

theorem offerNmi_run (s : State) : (offerNmi s).run = s.run := by
  by_cases hrun : s.run = .running
  · simp only [offerNmi, hrun, interruptEntry_run]
  · rw [offerNmi_stopped hrun]

/-- BRK, the byte 0x00, is the only instruction that changes the run state (R195). -/
theorem exec_run {i : Instr} {s t : State} (h : exec i s = .next t) :
    t.run = s.run ∨ (i.opcode = 0x00#8 ∧ t.run = .halted) := by
  rw [eq_effect_of_exec i s t h]
  by_cases hbrk : i.mnemonic = .brk
  · rw [eq_brk i hbrk]
    exact .inr ⟨rfl, rfl⟩
  · exact .inl (effect_session _ _ s hbrk).1

/-- The four ways a step leaves the run state: running, as it was with PC as it was, halted by the byte 0x00, or
faulted by a byte without a table entry (R25, R195, R201). -/
theorem step_run_cases {s t : State} (h : step s = .next t) :
    t.run = .running ∨
    (s.run ≠ .running ∧ t.run = s.run ∧ t.pc = s.pc) ∨
    (s.run = .running ∧ t.run = .halted ∧ ∃ later, StepDue s later ∧ s.readByte s.pc = 0x00#8) ∨
    (s.run = .running ∧ t.run = .faulted (.illegalOpcode (s.readByte s.pc) s.pc) ∧ t.pc = s.pc ∧
      formOf (s.readByte s.pc) = none) := by
  have hinterrupt : ∀ offer : State → State, (∀ u, (offer u).run = u.run) →
      (∀ u, u.run ≠ .running → offer u = u) → ∀ rest, t = offer (s.setInputs rest) →
      t.run = .running ∨ (s.run ≠ .running ∧ t.run = s.run ∧ t.pc = s.pc) := by
    rintro offer hrun hstopped rest rfl
    by_cases hs : s.run = .running
    · exact .inl ((hrun _).trans hs)
    · rw [hstopped (s.setInputs rest) hs]
      exact .inr ⟨hs, rfl, rfl⟩
  obtain ⟨rest, hdue, hi⟩ | ⟨rest, -, ht⟩ | ⟨rest, -, ht⟩ | ⟨rest, -, rfl⟩ | ⟨rest, a, v, -, rfl⟩ := step_cases s t h
  · obtain ⟨hs, rfl⟩ | ⟨hs, i, after, hdecode, hexec⟩ | ⟨hs, hform, rfl⟩ := instructionStep_cases _ t hi
    · exact .inr (.inl ⟨hs, rfl, rfl⟩)
    · obtain hrun | ⟨hop, hrun⟩ := exec_run hexec
      · exact .inl (hrun.trans hs)
      · exact .inr (.inr (.inl ⟨hs, hrun, rest, hdue, (opcode_of_fetch hdecode).symm.trans hop⟩))
    · exact .inr (.inr (.inr ⟨hs, rfl, rfl, hform⟩))
  · exact (hinterrupt offerIrq offerIrq_run (fun _ => offerIrq_stopped) rest ht).imp_right .inl
  · exact (hinterrupt offerNmi offerNmi_run (fun _ => offerNmi_stopped) rest ht).imp_right .inl
  · exact .inl rfl
  · by_cases hs : s.run = .running
    · exact .inl hs
    · exact .inr (.inl ⟨hs, rfl, rfl⟩)

/-- Settles O39: of the four ways only the third enters `Halted`. -/
theorem onlyBrkHalts : Obligations.OnlyBrkHalts := by
  intro s t hs hstep ht
  obtain hrun | ⟨-, hrun, -⟩ | ⟨hrunning, -, hbrk⟩ | ⟨-, hrun, -⟩ := step_run_cases hstep
  · cases hrun.symm.trans ht
  · exact absurd (hrun.symm.trans ht) hs
  · exact ⟨hrunning, hbrk⟩
  · cases hrun.symm.trans ht

/-- Settles O40: of the four ways only the last enters `Faulted`. -/
theorem faultOnlyAtAnIllegalOpcode : Obligations.FaultOnlyAtAnIllegalOpcode := by
  intro s t f hs hstep ht
  obtain hrun | ⟨hstopped, -⟩ | ⟨-, hrun, -⟩ | ⟨-, hrun, -, hform⟩ := step_run_cases hstep
  · cases hrun.symm.trans ht
  · exact absurd hs hstopped
  · cases hrun.symm.trans ht
  · injection ht.symm.trans hrun with hf
    exact ⟨hf, (formOf_eq_none_iff _).mp hform⟩

end Sys2Proof.Machine
end

section
/-! PROOFS. The invariant of the machine (R26, R41, R201): every write goes through the memory port, which keeps the
canonical form, and only the fault of an illegal opcode enters `Faulted`. -/

namespace Sys2Proof.Machine

/-! ## The canonical form -/

theorem push8_mem_wf (v : Byte) (s : State) (h : s.mem.wf = true) : (push8 v s).mem.wf = true :=
  State.writeByte_wf s (stackAddr s.sp) v h

theorem push16_mem_wf (w : Addr) (s : State) (h : s.mem.wf = true) : (push16 w s).mem.wf = true :=
  push8_mem_wf _ _ (push8_mem_wf _ s h)

theorem interruptEntry_mem_wf (vector : Addr) (s : State) (h : s.mem.wf = true) :
    (interruptEntry vector s).mem.wf = true := by
  rw [interruptEntry_spec]
  exact push8_mem_wf _ _ (push16_mem_wf s.pc s h)

/-- Every operation keeps memory in canonical form (R41, Log 4). -/
theorem effect_mem_wf (m : Mnemonic) (o : Operand) (s : State) (h : s.mem.wf = true) :
    (effect m o s).mem.wf = true := by
  have hbranch : ∀ f e, (branchAt f e o s).mem = s.mem := by
    intro f e
    cases o with
    | relative rel8 =>
      show (branchIf f e rel8 s).mem = s.mem
      unfold branchIf
      split <;> rfl
    | implied | immediate | mem => rfl
  cases m
  case sta | stx | sty | asl | lsr | rol | ror | inc | dec =>
    cases o with
    | mem m => exact State.writeByte_wf _ _ _ h
    | implied | immediate | relative => exact h
  case jsr =>
    cases o with
    | mem m => exact push16_mem_wf _ s h
    | implied | immediate | relative => exact h
  case jmp => cases o <;> exact h
  case bcc | bcs | beq | bne | bmi | bpl | bvc | bvs => exact (congrArg Memory.wf (hbranch _ _)).trans h
  case adc | sbc => exact (congrArg Memory.wf (addToA_mem _ s)).trans h
  case pha | php => exact push8_mem_wf _ s h
  all_goals exact h

theorem offerIrq_mem_wf (s : State) (h : s.mem.wf = true) : (offerIrq s).mem.wf = true := by
  unfold offerIrq
  split
  · split
    · exact h
    · exact interruptEntry_mem_wf _ s h
  · exact h
  · exact h

theorem offerNmi_mem_wf (s : State) (h : s.mem.wf = true) : (offerNmi s).mem.wf = true := by
  unfold offerNmi
  split
  · exact interruptEntry_mem_wf _ s h
  · exact h
  · exact h

/-- Every step keeps memory in canonical form (R41, Log 4). -/
theorem step_mem_wf {s t : State} (h : s.mem.wf = true) (hstep : step s = .next t) : t.mem.wf = true := by
  obtain ⟨rest, -, hi⟩ | ⟨rest, -, rfl⟩ | ⟨rest, -, rfl⟩ | ⟨rest, -, rfl⟩ | ⟨rest, a, v, -, rfl⟩ :=
    step_cases s t hstep
  · obtain ⟨-, rfl⟩ | ⟨-, i, after, -, hexec⟩ | ⟨-, -, rfl⟩ := instructionStep_cases _ t hi
    · exact h
    · rw [eq_effect_of_exec i _ t hexec]
      exact effect_mem_wf _ _ _ h
    · exact h
  · exact offerIrq_mem_wf _ h
  · exact offerNmi_mem_wf _ h
  · exact h
  · exact State.writeByte_wf _ a v h

/-! ## The invariant -/

/-- Settles O55: the memory after reset is empty, and the core runs. -/
theorem invariantHoldsAtReset : Obligations.InvariantHoldsAtReset :=
  ⟨⟨State.reset_mem_wf, fun f hf => by cases hf⟩, rfl⟩

/-- Settles O56: a fault record of the next state is either an old one, with PC as it was, or that of the illegal
opcode the step met. -/
theorem everyStepKeepsTheInvariant : Obligations.EveryStepKeepsTheInvariant := by
  rintro s t ⟨hmem, hrecord⟩ hstep
  refine ⟨step_mem_wf hmem hstep, fun f ht => ?_⟩
  obtain hrun | ⟨-, hrun, hpc⟩ | ⟨-, hrun, -⟩ | ⟨-, hrun, hpc, hform⟩ := step_run_cases hstep
  · cases hrun.symm.trans ht
  · rw [hpc]
    exact hrecord f (hrun.symm.trans ht)
  · cases hrun.symm.trans ht
  · injection ht.symm.trans hrun with hf
    exact ⟨_, hpc.symm ▸ hf, hform⟩

end Sys2Proof.Machine
end

section
/-! PROOFS. Who writes what (R10 to R24, R46, R94): one frame for every operation, and what it says of the flags, the
registers and the bytes of memory an instruction changes. -/

namespace Sys2Proof.Machine

/-! ## What an operation writes -/

/-- The flags whose rules list the operation (R16 to R23). -/
def flagsWrittenBy (m : Mnemonic) : List Flag := allFlags.filter fun f => decide (m ∈ flagWriters f)

/-- A shift writes A in its accumulator form only (R124). -/
def shiftedRegs : Operand → List Reg
  | .implied => [.a]
  | _ => []

/-- The byte registers an operation writes (R10 to R13). -/
def regsWrittenBy (m : Mnemonic) (o : Operand) : List Reg :=
  match m with
  | .lda | .adc | .sbc | .and | .ora | .eor | .txa | .tya => [.a]
  | .asl | .lsr | .rol | .ror => shiftedRegs o
  | .pla => [.a, .sp]
  | .ldx | .tax | .tsx | .inx | .dex => [.x]
  | .ldy | .tay | .iny | .dey => [.y]
  | .pha | .php | .plp | .jsr | .rts | .rti | .txs => [.sp]
  | _ => []

/-- The effective address of an operand in memory. -/
def operandCells (o : Operand) (s : State) : List Addr :=
  match o with
  | .mem m => [effAddr m s]
  | _ => []

/-- The bytes an operation writes: its operand's cell, or the slots it pushes (R46, R94, R155). -/
def cellsWrittenBy (m : Mnemonic) (o : Operand) (s : State) : List Addr :=
  match m with
  | .sta | .stx | .sty | .inc | .dec | .asl | .lsr | .rol | .ror => operandCells o s
  | .pha | .php => [stackAddr s.sp]
  | .jsr => [stackAddr s.sp, stackAddr (s.sp - 1)]
  | _ => []

/-! ## The frame of every operation -/

theorem storeAt_changesOnly (v : Byte) (o : Operand) (s : State) :
    ChangesOnly [] [] (operandCells o s) s (storeAt v o s) := by
  cases o with
  | mem m => exact writeByte_changesOnly v s (effAddr m s)
  | implied | immediate | relative => exact ChangesOnly.refl s

theorem stepAt_changesOnly (f : Byte → Byte) (o : Operand) (s : State) :
    ChangesOnly [] [.z, .n] (operandCells o s) s (stepAt f o s) := by
  cases o with
  | mem m => exact (writeByte_changesOnly _ s (effAddr m s)).setZN _
  | implied | immediate | relative =>
    exact (ChangesOnly.refl s).mono (List.nil_subset _) (List.nil_subset _) (List.nil_subset _)

theorem setShiftFlags_changesOnly (out : Shifted) (s : State) :
    ChangesOnly [] [.c, .z, .n] [] s (setShiftFlags out s) :=
  ⟨fun r _ => by cases r <;> rfl, setShiftFlags_flagsKept out s, fun _ _ => rfl, rfl, rfl⟩

theorem shiftAt_changesOnly (f : Byte → Bool → Shifted) (o : Operand) (s : State) :
    ChangesOnly (shiftedRegs o) [.c, .z, .n] (operandCells o s) s (shiftAt f o s) := by
  cases o with
  | implied => exact (setShiftFlags_changesOnly _ s).trans (setA_changesOnly _ _)
  | mem m => exact (setShiftFlags_changesOnly _ s).trans (writeByte_changesOnly _ _ (effAddr m s))
  | immediate | relative =>
    exact (ChangesOnly.refl s).mono (List.nil_subset _) (List.nil_subset _) (List.nil_subset _)

theorem branchAt_changesOnly (f : Flag) (e : Bool) (o : Operand) (s : State) :
    ChangesOnly [] [] [] s (branchAt f e o s) := by
  cases o with
  | relative rel8 => exact branchIf_changesOnly f e rel8 s
  | implied | immediate | mem => exact ChangesOnly.refl s

theorem jumpAt_changesOnly (o : Operand) (s : State) : ChangesOnly [] [] [] s (jumpAt o s) := by
  cases o with
  | mem m => exact setPC_changesOnly s _
  | implied | immediate | relative => exact ChangesOnly.refl s

theorem callAt_changesOnly (o : Operand) (s : State) :
    ChangesOnly [.sp] [] [stackAddr s.sp, stackAddr (s.sp - 1)] s (callAt o s) := by
  cases o with
  | mem m => exact callSubroutine_changesOnly _ s
  | implied | immediate | relative =>
    exact (ChangesOnly.refl s).mono (List.nil_subset _) (List.nil_subset _) (List.nil_subset _)

/-- Every operation changes only what the tables above list for it; BRK, which changes the run state, is apart. -/
theorem effect_changesOnly {m : Mnemonic} (hbrk : m ≠ .brk) (o : Operand) (s : State) :
    ChangesOnly (regsWrittenBy m o) (flagsWrittenBy m) (cellsWrittenBy m o s) s (effect m o s) := by
  cases m
  case brk => exact absurd rfl hbrk
  case lda | and | ora | eor | txa | tya =>
    exact (moveToA_changesOnly _ s).mono (List.Subset.refl _) (by decide) (List.nil_subset _)
  case ldx | tax | tsx | inx | dex =>
    exact (moveToX_changesOnly _ s).mono (List.Subset.refl _) (by decide) (List.nil_subset _)
  case ldy | tay | iny | dey =>
    exact (moveToY_changesOnly _ s).mono (List.Subset.refl _) (by decide) (List.nil_subset _)
  case sta | stx | sty =>
    exact (storeAt_changesOnly _ o s).mono (List.nil_subset _) (List.nil_subset _) (List.Subset.refl _)
  case adc | sbc =>
    exact (addToA_changesOnly _ s).mono (List.Subset.refl _) (by decide) (List.nil_subset _)
  case bit => exact (testBits_changesOnly o s).mono (List.nil_subset _) (by decide) (List.nil_subset _)
  case asl | lsr | rol | ror =>
    exact (shiftAt_changesOnly _ o s).mono (List.Subset.refl _) (by decide) (List.Subset.refl _)
  case cmp | cpx | cpy =>
    exact (compareWith_changesOnly _ _ s).mono (List.nil_subset _) (by decide) (List.nil_subset _)
  case inc | dec =>
    exact (stepAt_changesOnly _ o s).mono (List.nil_subset _) (by decide) (List.Subset.refl _)
  case bcc | bcs | beq | bne | bmi | bpl | bvc | bvs =>
    exact (branchAt_changesOnly _ _ o s).mono (List.nil_subset _) (List.nil_subset _) (List.nil_subset _)
  case jmp => exact (jumpAt_changesOnly o s).mono (List.nil_subset _) (List.nil_subset _) (List.nil_subset _)
  case jsr => exact (callAt_changesOnly o s).mono (List.Subset.refl _) (List.nil_subset _) (List.Subset.refl _)
  case rts =>
    exact (returnFromSubroutine_changesOnly s).mono (List.Subset.refl _) (List.nil_subset _) (List.nil_subset _)
  case pha => exact (push8_changesOnly s s.a).mono (List.Subset.refl _) (List.nil_subset _) (List.Subset.refl _)
  case php => exact (pushStatus_changesOnly s).mono (List.Subset.refl _) (by decide) (List.Subset.refl _)
  case pla => exact (pullA_changesOnly s).mono (List.Subset.refl _) (by decide) (List.nil_subset _)
  case plp => exact (pullStatus_changesOnly s).mono (List.Subset.refl _) (by decide) (List.nil_subset _)
  case rti => exact (interruptReturn_changesOnly s).mono (List.Subset.refl _) (by decide) (List.nil_subset _)
  case clc | sec | cld | sed | cli | sei | clv =>
    exact (setFlag_changesOnly s _ _).mono (List.nil_subset _) (by decide) (List.nil_subset _)
  case txs => exact (setSP_changesOnly s s.x).mono (List.Subset.refl _) (List.nil_subset _) (List.nil_subset _)
  case nop => exact (ChangesOnly.refl s).mono (List.nil_subset _) (List.nil_subset _) (List.nil_subset _)

/-- The frame of every instruction, BRK with the others, without the run state. -/
theorem exec_frame {i : Instr} {s t : State} (h : exec i s = .next t) :
    RegsKept (regsWrittenBy i.mnemonic i.operand) s t ∧ FlagsKept (flagsWrittenBy i.mnemonic) s t ∧
      MemKept (cellsWrittenBy i.mnemonic i.operand s) s t := by
  rw [eq_effect_of_exec i s t h]
  by_cases hbrk : i.mnemonic = .brk
  · rw [hbrk]
    exact ⟨fun r _ => by cases r <;> rfl, fun _ _ => rfl, fun _ _ => rfl⟩
  · obtain ⟨hregs, hflags, hmem, -⟩ := effect_changesOnly hbrk i.operand s
    exact ⟨hregs, hflags, hmem⟩

/-! ## Writers of flags, registers and memory -/

/-- Settles O57: a changed flag is one whose rule lists the operation, by the frame. -/
theorem flagsChangeOnlyByTheirWriters : Obligations.FlagsChangeOnlyByTheirWriters := by
  intro i s t f hexec hchanged
  obtain ⟨-, hflags, -⟩ := exec_frame hexec
  have hwritten : f ∈ flagsWrittenBy i.mnemonic := by_contra fun hkept => hchanged (hflags f hkept)
  exact of_decide_eq_true (List.mem_filter.mp hwritten).2

theorem mem_shiftedRegs {r : Reg} {o : Operand} (h : r ∈ shiftedRegs o) : r = .a ∧ o = .implied := by
  cases o with
  | implied => exact ⟨List.mem_singleton.mp h, rfl⟩
  | immediate | mem | relative => cases h

/-- Who writes A: the listed operations, and the accumulator forms of the shifts (R10, R124). -/
theorem writes_a {m : Mnemonic} {o : Operand} (h : .a ∈ regsWrittenBy m o) :
    m ∈ [.lda, .adc, .sbc, .and, .ora, .eor, .pla, .txa, .tya] ∨
      (m ∈ [.asl, .lsr, .rol, .ror] ∧ o = .implied) := by
  cases m
  case asl | lsr | rol | ror => exact .inr ⟨by decide, (mem_shiftedRegs h).2⟩
  case lda | adc | sbc | and | ora | eor | pla | txa | tya => exact .inl (by decide)
  all_goals simp [regsWrittenBy] at h

/-- Who writes X, Y and SP, none of which a shift can (R11 to R13). -/
theorem writes_x_y_sp {m : Mnemonic} {o : Operand} :
    (.x ∈ regsWrittenBy m o → m ∈ [.ldx, .tax, .tsx, .inx, .dex]) ∧
    (.y ∈ regsWrittenBy m o → m ∈ [.ldy, .tay, .iny, .dey]) ∧
    (.sp ∈ regsWrittenBy m o → m ∈ [.pha, .php, .pla, .plp, .jsr, .rts, .rti, .txs]) := by
  cases m
  case asl | lsr | rol | ror =>
    refine ⟨fun h => ?_, fun h => ?_, fun h => ?_⟩
    all_goals exact absurd (mem_shiftedRegs h).1 (by decide)
  all_goals simp [regsWrittenBy]

/-- Settles O58: a changed register is one the frame names. -/
theorem registersChangeOnlyByTheirWriters : Obligations.RegistersChangeOnlyByTheirWriters := by
  intro i s t hexec
  obtain ⟨hregs, -, -⟩ := exec_frame hexec
  have hwritten : ∀ r, t.reg r ≠ s.reg r → r ∈ regsWrittenBy i.mnemonic i.operand :=
    fun r hchanged => by_contra fun hkept => hchanged (hregs r hkept)
  obtain ⟨hx, hy, hsp⟩ := writes_x_y_sp (m := i.mnemonic) (o := i.operand)
  exact ⟨fun h => writes_a (hwritten .a h), fun h => hx (hwritten .x h), fun h => hy (hwritten .y h),
    fun h => hsp (hwritten .sp h)⟩

theorem mem_operandCells {a : Addr} {o : Operand} {s : State} (h : a ∈ operandCells o s) :
    ∃ m, o = .mem m ∧ a = effAddr m s := by
  cases o with
  | mem m => exact ⟨m, rfl, List.mem_singleton.mp h⟩
  | implied | immediate | relative => cases h

/-- Which bytes an operation writes: its operand's cell, or a slot it pushes (R46, R94, R155). -/
theorem mem_cellsWrittenBy {m : Mnemonic} {o : Operand} {s : State} {a : Addr} (h : a ∈ cellsWrittenBy m o s) :
    (m ∈ [.sta, .stx, .sty, .inc, .dec, .asl, .lsr, .rol, .ror] ∧ ∃ mo, o = .mem mo ∧ a = effAddr mo s) ∨
    (m ∈ [.pha, .php, .jsr] ∧ (a = stackAddr s.sp ∨ m = .jsr ∧ a = stackAddr (s.sp - 1))) := by
  cases m
  case sta | stx | sty | inc | dec | asl | lsr | rol | ror => exact .inl ⟨by decide, mem_operandCells h⟩
  case pha | php => exact .inr ⟨by decide, .inl (List.mem_singleton.mp h)⟩
  case jsr =>
    refine .inr ⟨by decide, ?_⟩
    simpa [cellsWrittenBy] using h
  all_goals cases h

/-- Settles O59: a changed byte is one the frame names, and a stack slot lies in page one. -/
theorem memoryChangesOnlyByStoresAndPushes : Obligations.MemoryChangesOnlyByStoresAndPushes := by
  intro i s t a hexec hchanged
  obtain ⟨-, -, hmem⟩ := exec_frame hexec
  have hwritten : a ∈ cellsWrittenBy i.mnemonic i.operand s := by_contra fun hkept => hchanged (hmem a hkept)
  have hpage : ∀ sp : Byte, a = stackAddr sp → 256 ≤ a.toNat ∧ a.toNat < 512 := by
    rintro sp rfl
    have := sp.isLt
    rw [stackAddr_toNat]
    omega
  refine (mem_cellsWrittenBy hwritten).imp_right fun ⟨hm, hslot⟩ => ?_
  obtain ⟨hlow, hhigh⟩ : 256 ≤ a.toNat ∧ a.toNat < 512 := hslot.elim (hpage _) fun h => hpage _ h.2
  exact ⟨hm, hlow, hhigh, hslot⟩

end Sys2Proof.Machine
end

section
/-! PROOFS. Break and Unused (R33): the relation "alike but for the live Break and Unused bits" is kept by every
update of the state, so by every operation and every step. -/

namespace Sys2Proof.Machine

/-! ## The relation -/

/-- Two status registers agree but for Break and Unused. -/
def StatusAlike (p q : Byte) : Prop := ∀ f, f ∉ [.b, .u] → getFlag f q = getFlag f p

/-- States alike but for the two bits are one state with two status registers. -/
theorem sameButBreakUnused_iff (s t : State) :
    SameButBreakUnused s t ↔ ∃ q, t = s.setP q ∧ StatusAlike s.p q := by
  constructor
  · rintro ⟨ha, hx, hy, hsp, hpc, hrun, hmem, hinputs, hflags⟩
    refine ⟨t.p, ?_, hflags⟩
    cases s
    cases t
    cases ha; cases hx; cases hy; cases hsp; cases hpc; cases hrun; cases hmem; cases hinputs
    rfl
  · rintro ⟨q, rfl, hq⟩
    exact ⟨rfl, rfl, rfl, rfl, rfl, rfl, rfl, rfl, hq⟩

theorem sameButBreakUnused_setP {s : State} {q : Byte} (hq : StatusAlike s.p q) :
    SameButBreakUnused s (s.setP q) :=
  (sameButBreakUnused_iff s _).mpr ⟨q, rfl, hq⟩

theorem SameButBreakUnused.refl (s : State) : SameButBreakUnused s s :=
  ⟨rfl, rfl, rfl, rfl, rfl, rfl, rfl, rfl, fun _ _ => rfl⟩

/-- The same flag write keeps two status registers alike (R24). -/
theorem StatusAlike.putFlag {p q : Byte} (h : StatusAlike p q) (f : Flag) (v : Bool) :
    StatusAlike (putFlag f v p) (putFlag f v q) := by
  intro g hg
  rw [getFlag_putFlag, getFlag_putFlag, h g hg]

/-- Once both bits are set, status registers alike but for them are equal: PHP stacks the same byte (R166). -/
theorem StatusAlike.or_breakUnused {p q : Byte} (h : StatusAlike p q) : q ||| 0x30#8 = p ||| 0x30#8 := by
  rw [status_ext]
  intro f
  rw [getFlag_or_breakUnused, getFlag_or_breakUnused]
  by_cases hf : f = .b ∨ f = .u
  · rw [if_pos hf, if_pos hf]
  · rw [if_neg hf, if_neg hf, h f (by simpa using hf)]

/-- An interrupt entry writes both bits, so it stacks the same status (R206). -/
theorem StatusAlike.interruptStatus {p q : Byte} (h : StatusAlike p q) :
    interruptStatus q = interruptStatus p := by
  rw [status_ext]
  intro f
  rw [getFlag_interruptStatus, getFlag_interruptStatus]
  by_cases hu : f = .u
  · rw [if_pos hu, if_pos hu]
  by_cases hb : f = .b
  · rw [if_neg hu, if_pos hb, if_neg hu, if_pos hb]
  · rw [if_neg hu, if_neg hb, if_neg hu, if_neg hb, h f (by simp [hb, hu])]

/-! ## Updates that keep it -/

section Updates
variable {s : State} {q : Byte}

/-- No effective address depends on the status register (R83 to R92). -/
@[simp] theorem effAddr_setP (m : MemOperand) : effAddr m (s.setP q) = effAddr m s := by
  cases m <;> rfl

@[simp] theorem operandData_setP (o : Operand) : operandData o (s.setP q) = operandData o s := by
  cases o with
  | mem m => rw [operandData_mem, operandData_mem, effAddr_setP, State.setP_readByte]
  | implied | immediate | relative => rfl

variable (hq : StatusAlike s.p q)
include hq

theorem setFlag_alike (f : Flag) (v : Bool) : SameButBreakUnused (s.setFlag f v) ((s.setP q).setFlag f v) :=
  sameButBreakUnused_setP (s := s.setFlag f v) (hq.putFlag f v)

theorem setZN_alike (v : Byte) : SameButBreakUnused (setZN v s) (setZN v (s.setP q)) :=
  sameButBreakUnused_setP (s := setZN v s) ((hq.putFlag .z _).putFlag .n _)

theorem compareWith_alike (reg data : Byte) :
    SameButBreakUnused (compareWith reg data s) (compareWith reg data (s.setP q)) :=
  sameButBreakUnused_setP (s := compareWith reg data s) (((hq.putFlag .c _).putFlag .z _).putFlag .n _)

theorem testBits_alike (o : Operand) : SameButBreakUnused (testBits o s) (testBits o (s.setP q)) := by
  unfold testBits
  rw [operandData_setP]
  exact sameButBreakUnused_setP (s := testBits o s) (((hq.putFlag .z _).putFlag .n _).putFlag .v _)

/-- The carry that ADC, SBC and the rotates read is alike (R110, R122). -/
theorem flag_c_alike : (s.setP q).flag .c = s.flag .c :=
  hq .c (by decide)

theorem addToA_alike (data : Byte) : SameButBreakUnused (addToA data s) (addToA data (s.setP q)) := by
  have hc := flag_c_alike hq
  refine ⟨congrArg (addResult s.a data) hc, rfl, rfl, rfl, rfl, rfl, rfl, rfl, fun f hf => ?_⟩
  rw [flag_addToA, flag_addToA, hc, State.setP_flag, hq f hf]
  rfl

theorem shiftAt_alike (f : Byte → Bool → Shifted) (o : Operand) :
    SameButBreakUnused (shiftAt f o s) (shiftAt f o (s.setP q)) := by
  have hc := flag_c_alike hq
  have hflags : ∀ out : Shifted,
      StatusAlike (setShiftFlags out s).p (putFlag .n (isNegative out.result)
        (putFlag .z (isZero out.result) (putFlag .c out.carry q))) :=
    fun out => ((hq.putFlag .c _).putFlag .z _).putFlag .n _
  cases o with
  | implied =>
    show SameButBreakUnused (shiftA f s) (shiftA f (s.setP q))
    rw [shiftA_spec f (s.setP q), hc]
    exact sameButBreakUnused_setP (s := shiftA f s) (hflags _)
  | mem m =>
    show SameButBreakUnused (shiftMem f m s) (shiftMem f m (s.setP q))
    rw [shiftMem_spec f m (s.setP q), hc, effAddr_setP]
    exact sameButBreakUnused_setP (s := shiftMem f m s) (hflags _)
  | immediate | relative => exact sameButBreakUnused_setP hq

theorem storeAt_alike (v : Byte) (o : Operand) :
    SameButBreakUnused (storeAt v o s) (storeAt v o (s.setP q)) := by
  cases o with
  | mem m =>
    show SameButBreakUnused (s.writeByte (effAddr m s) v) ((s.setP q).writeByte (effAddr m (s.setP q)) v)
    rw [effAddr_setP]
    exact sameButBreakUnused_setP (s := s.writeByte (effAddr m s) v) hq
  | implied | immediate | relative => exact sameButBreakUnused_setP hq

theorem stepAt_alike (f : Byte → Byte) (o : Operand) :
    SameButBreakUnused (stepAt f o s) (stepAt f o (s.setP q)) := by
  cases o with
  | mem m =>
    show SameButBreakUnused (stepMem f m s) (stepMem f m (s.setP q))
    rw [stepMem_spec f m (s.setP q), effAddr_setP]
    exact setZN_alike (s := s.writeByte (effAddr m s) (f (s.readByte (effAddr m s)))) hq _
  | implied | immediate | relative => exact sameButBreakUnused_setP hq

/-- No branch tests Break or Unused (R146 to R153). -/
theorem branchAt_alike {f : Flag} (hf : f ∉ [.b, .u]) (e : Bool) (o : Operand) :
    SameButBreakUnused (branchAt f e o s) (branchAt f e o (s.setP q)) := by
  cases o with
  | relative rel8 =>
    have hflag : (s.setP q).flag f = s.flag f := hq f hf
    obtain ⟨htaken, hnot⟩ := branchIf_spec f e rel8 s
    obtain ⟨htaken', hnot'⟩ := branchIf_spec f e rel8 (s.setP q)
    show SameButBreakUnused (branchIf f e rel8 s) (branchIf f e rel8 (s.setP q))
    by_cases h : s.flag f = e
    · rw [htaken h, htaken' (hflag.trans h)]
      exact sameButBreakUnused_setP (s := s.setPC (branchTarget rel8 s)) hq
    · rw [hnot h, hnot' (hflag ▸ h)]
      exact sameButBreakUnused_setP hq
  | implied | immediate | mem => exact sameButBreakUnused_setP hq

theorem jumpAt_alike (o : Operand) : SameButBreakUnused (jumpAt o s) (jumpAt o (s.setP q)) := by
  cases o with
  | mem m =>
    show SameButBreakUnused (s.setPC (effAddr m s)) ((s.setP q).setPC (effAddr m (s.setP q)))
    rw [effAddr_setP]
    exact sameButBreakUnused_setP (s := s.setPC (effAddr m s)) hq
  | implied | immediate | relative => exact sameButBreakUnused_setP hq

theorem callAt_alike (o : Operand) : SameButBreakUnused (callAt o s) (callAt o (s.setP q)) := by
  cases o with
  | mem m =>
    show SameButBreakUnused (callSubroutine (effAddr m s) s) (callSubroutine (effAddr m (s.setP q)) (s.setP q))
    rw [effAddr_setP]
    exact sameButBreakUnused_setP (s := callSubroutine (effAddr m s) s) hq
  | implied | immediate | relative => exact sameButBreakUnused_setP hq

theorem pushStatus_alike : SameButBreakUnused (pushStatus s) (pushStatus (s.setP q)) := by
  rw [pushStatus_spec (s.setP q), State.setP_p, hq.or_breakUnused]
  exact sameButBreakUnused_setP (s := pushStatus s) ((hq.putFlag .b _).putFlag .u _)

/-- No operation depends on the live Break and Unused bits (R33). -/
theorem effect_alike (m : Mnemonic) (o : Operand) :
    SameButBreakUnused (effect m o s) (effect m o (s.setP q)) := by
  have hmoveA : ∀ v, SameButBreakUnused (moveToA v s) (moveToA v (s.setP q)) :=
    fun v => setZN_alike (s := s.setA v) hq v
  have hmoveX : ∀ v, SameButBreakUnused (moveToX v s) (moveToX v (s.setP q)) :=
    fun v => setZN_alike (s := s.setX v) hq v
  have hmoveY : ∀ v, SameButBreakUnused (moveToY v s) (moveToY v (s.setP q)) :=
    fun v => setZN_alike (s := s.setY v) hq v
  cases m
  case lda | and | ora | eor =>
    simp only [effect, combineA, operandData_setP]
    exact hmoveA _
  case ldx =>
    simp only [effect, operandData_setP]
    exact hmoveX _
  case ldy =>
    simp only [effect, operandData_setP]
    exact hmoveY _
  case adc | sbc =>
    simp only [effect, operandData_setP]
    exact addToA_alike hq _
  case cmp | cpx | cpy =>
    simp only [effect, operandData_setP]
    exact compareWith_alike hq _ _
  case sta | stx | sty => exact storeAt_alike hq _ o
  case bit => exact testBits_alike hq o
  case asl | lsr | rol | ror => exact shiftAt_alike hq _ o
  case inc | dec => exact stepAt_alike hq _ o
  case txa | tya => exact hmoveA _
  case tax | tsx | inx | dex => exact hmoveX _
  case tay | iny | dey => exact hmoveY _
  case bcc | bcs | beq | bne | bmi | bpl | bvc | bvs => exact branchAt_alike hq (by decide) _ o
  case jmp => exact jumpAt_alike hq o
  case jsr => exact callAt_alike hq o
  case rts => exact sameButBreakUnused_setP (s := returnFromSubroutine s) hq
  case pha => exact sameButBreakUnused_setP (s := push8 s.a s) hq
  case php => exact pushStatus_alike hq
  case pla => exact setZN_alike (s := (pop8 s).setA (popped8 s)) hq _
  case plp | rti => exact SameButBreakUnused.refl _
  case clc | sec | cld | sed | cli | sei | clv => exact setFlag_alike hq _ _
  case txs => exact sameButBreakUnused_setP (s := s.setSP s.x) hq
  case brk => exact sameButBreakUnused_setP (s := s.setRun .halted) hq
  case nop => exact sameButBreakUnused_setP hq

/-- An interrupt entry writes both bits, so it leaves the very same state (R206). -/
theorem interruptEntry_alike (vector : Addr) : interruptEntry vector (s.setP q) = interruptEntry vector s := by
  rw [interruptEntry_spec, State.setP_p, hq.interruptStatus, interruptEntry_spec]
  rfl

/-- Whether an IRQ is dropped rests on InterruptDisable alone (R205). -/
theorem offerIrq_alike : SameButBreakUnused (offerIrq s) (offerIrq (s.setP q)) := by
  have hi : (s.setP q).flag .i = s.flag .i := hq .i (by decide)
  by_cases hrun : s.run = .running
  · simp only [offerIrq, State.setP_run, hrun, hi, interruptEntry_alike hq]
    split
    · exact sameButBreakUnused_setP hq
    · exact SameButBreakUnused.refl _
  · rw [offerIrq_stopped hrun, offerIrq_stopped (s := s.setP q) hrun]
    exact sameButBreakUnused_setP hq

theorem offerNmi_alike : SameButBreakUnused (offerNmi s) (offerNmi (s.setP q)) := by
  by_cases hrun : s.run = .running
  · simp only [offerNmi, State.setP_run, hrun, interruptEntry_alike hq]
    exact SameButBreakUnused.refl _
  · rw [offerNmi_stopped hrun, offerNmi_stopped (s := s.setP q) hrun]
    exact sameButBreakUnused_setP hq

/-- An instruction step fetches the same bytes, so it does the same (R80). -/
theorem instructionStep_alike {t : State} (h : instructionStep exec s = .next t) :
    ∃ t', instructionStep exec (s.setP q) = .next t' ∧ SameButBreakUnused t t' := by
  obtain ⟨hrun, rfl⟩ | ⟨hrun, i, rest, hdecode, hexec⟩ | ⟨hrun, hform, rfl⟩ := instructionStep_cases s t h
  · exact ⟨_, instructionStep_stopped exec (t.setP q) hrun, sameButBreakUnused_setP hq⟩
  · rw [eq_effect_of_exec i _ t hexec]
    refine ⟨_, (instructionStep_decoded exec (s.setP q) i rest hrun hdecode).trans (exec_eq_effect i _), ?_⟩
    exact effect_alike (s := pastInstr i s) hq i.mnemonic i.operand
  · exact ⟨_, instructionStep_illegal exec (s.setP q) hrun hform,
      sameButBreakUnused_setP (s := raiseFault (.illegalOpcode (s.readByte s.pc) s.pc) s) hq⟩

end Updates

/-- Settles O60: whatever action is due, it keeps the relation. -/
theorem breakAndUnusedNeverReachAProgram : Obligations.BreakAndUnusedNeverReachAProgram := by
  intro s s' t halike hstep
  obtain ⟨q, rfl, hq⟩ := (sameButBreakUnused_iff s s').mp halike
  obtain ⟨rest, hdue, hi⟩ | ⟨rest, h, rfl⟩ | ⟨rest, h, rfl⟩ | ⟨rest, h, rfl⟩ | ⟨rest, a, v, h, rfl⟩ :=
    step_cases s t hstep
  · rw [step_of_stepDue (s.setP q) rest hdue]
    exact instructionStep_alike (s := s.setInputs rest) hq hi
  · exact ⟨_, step_of_irq (s.setP q) rest h, offerIrq_alike (s := s.setInputs rest) hq⟩
  · exact ⟨_, step_of_nmi (s.setP q) rest h, offerNmi_alike (s := s.setInputs rest) hq⟩
  · exact ⟨_, step_of_reset (s.setP q) rest h, SameButBreakUnused.refl _⟩
  · exact ⟨_, step_of_write (s.setP q) rest a v h,
      sameButBreakUnused_setP (s := (s.setInputs rest).writeByte a v) hq⟩

end Sys2Proof.Machine
end

section
/-! PROOFS. The environment (R52, R55, R205 to R213, R230 to R234): writes to memory, interrupt entry and the return
from it, and reset. -/

namespace Sys2Proof.Machine

/-! ## Writes to memory -/

/-- Settles O41: the step is the write of the byte. -/
theorem environmentWriteStoresOneByte : Obligations.EnvironmentWriteStoresOneByte := by
  intro s later a v h
  exact ⟨_, step_of_write s later a v h, fun b => State.readByte_writeByte _ a b v, rfl, rfl⟩

/-- Settles O42: the fetch reads the byte the store has written. -/
theorem storeIsSeenByTheNextFetch : Obligations.StoreIsSeenByTheNextFetch := by
  intro s
  have hbyte : (s.writeByte s.pc s.a).readByte s.pc = s.a := State.readByte_writeByte_same s s.pc s.a
  exact ⟨_, exec_of_mnemonic rfl s, rfl, congrArg some hbyte,
    fun i rest hdecode => (opcode_of_fetch hdecode).trans hbyte⟩

/-! ## Interrupt entry -/

/-- The three slots of an interrupt frame are different bytes of memory (R213). -/
theorem frame_slots_ne (sp : Byte) :
    stackAddr sp ≠ stackAddr (sp - 1) ∧ stackAddr sp ≠ stackAddr (sp - 2) ∧
      stackAddr (sp - 1) ≠ stackAddr (sp - 2) := by
  simp only [ne_eq, stackAddr_inj]
  bv_omega

/-- The frame of an interrupt entry: SP, the three flags it writes, and the three bytes it pushes (R206, R213). -/
theorem interruptEntry_changesOnly (vector : Addr) (s : State) : ChangesOnly [.sp] [.i, .b, .u]
    [stackAddr s.sp, stackAddr (s.sp - 1), stackAddr (s.sp - 2)] s (interruptEntry vector s) := by
  refine ⟨fun r hr => ?_, fun f hf => ?_, fun addr haddr => ?_, interruptEntry_run vector s,
    interruptEntry_inputs vector s⟩
  · cases r with
    | sp => simp at hr
    | a => exact interruptEntry_a vector s
    | x => exact interruptEntry_x vector s
    | y => exact interruptEntry_y vector s
  · obtain ⟨hi, hb, hu⟩ : f ≠ .i ∧ f ≠ .b ∧ f ≠ .u := by simpa using hf
    rw [State.flag, interruptEntry_p, getFlag_putFlag, getFlag_interruptStatus, if_neg hi, if_neg hu, if_neg hb]
    rfl
  · obtain ⟨h0, h1, h2⟩ : addr ≠ stackAddr s.sp ∧ addr ≠ stackAddr (s.sp - 1) ∧ addr ≠ stackAddr (s.sp - 2) := by
      simpa using haddr
    rw [readByte_interruptEntry, sub_one_sub_one, if_neg h2, if_neg h1, if_neg h0]

/-- An interrupt entry through a vector outside page one does what R206 and R213 say. -/
theorem interruptEntry_entered {vector : Addr} (h : 512 ≤ vector.toNat) (h1 : 512 ≤ (vector + 1).toNat)
    (s : State) : InterruptEntered vector s (interruptEntry vector s) := by
  obtain ⟨h01, h02, h12⟩ := frame_slots_ne s.sp
  obtain ⟨hregs, hflags, hmem, hrun, -⟩ := interruptEntry_changesOnly vector s
  have hflag : ∀ f, (interruptEntry vector s).flag f =
      if f = .i then true else if f = .u then true else if f = .b then false else s.flag f := by
    intro f
    rw [State.flag, interruptEntry_p, getFlag_putFlag, getFlag_interruptStatus]
    rfl
  refine ⟨?_, ?_, fun f => ?_, ?_, hflag .i, hflag .b, hflag .u, interruptEntry_pc vector s h h1, hregs, hflags,
    hmem, hrun⟩
  · rw [readByte_interruptEntry, sub_one_sub_one, if_neg h02, if_neg h01, if_pos rfl]
  · rw [readByte_interruptEntry, sub_one_sub_one, if_neg h12, if_pos rfl]
  · rw [readByte_interruptEntry, sub_one_sub_one, if_pos rfl, getFlag_interruptStatus]
    cases f <;> rfl
  · rw [interruptEntry_sp, sub_one_sub_one, sub_sub]
    rfl

theorem irqEntry_entered (s : State) : InterruptEntered 0xFFFE#16 s (interruptEntry Config.irqVector s) :=
  interruptEntry_entered (by decide) (by decide) s

theorem nmiEntry_entered (s : State) : InterruptEntered 0xFFFA#16 s (interruptEntry Config.nmiVector s) :=
  interruptEntry_entered (by decide) (by decide) s

/-- While running, an IRQ with I clear is an entry through its vector (R205, R206). -/
theorem step_irq_taken {s : State} {later : List Event} (hrun : s.run = .running) (h : s.inputs = .irq :: later)
    (hi : s.flag .i = false) : step s = .next (interruptEntry Config.irqVector (s.setInputs later)) := by
  rw [step_of_irq s later h]
  simp [offerIrq, hrun, hi]

/-- While running, an IRQ with I set is dropped (R205, R210). -/
theorem step_irq_masked {s : State} {later : List Event} (hrun : s.run = .running) (h : s.inputs = .irq :: later)
    (hi : s.flag .i = true) : step s = .next (s.setInputs later) := by
  rw [step_of_irq s later h]
  simp [offerIrq, hrun, hi]

/-- While running, an NMI is an entry through its vector (R207). -/
theorem step_nmi_taken {s : State} {later : List Event} (hrun : s.run = .running) (h : s.inputs = .nmi :: later) :
    step s = .next (interruptEntry Config.nmiVector (s.setInputs later)) := by
  rw [step_of_nmi s later h]
  simp [offerNmi, hrun]

/-- Settles O44: the entry is that of the state with the action used up, which has the same registers and memory. -/
theorem irqIsTakenUnlessMasked : Obligations.IrqIsTakenUnlessMasked := by
  intro s later hrun h
  exact ⟨fun hi => ⟨_, step_irq_taken hrun h hi, irqEntry_entered (s.setInputs later), interruptEntry_inputs _ _⟩,
    fun hi => step_irq_masked hrun h hi⟩

/-- Settles O45: the offer of an NMI does not look at I. -/
theorem nmiIsAlwaysTaken : Obligations.NmiIsAlwaysTaken := by
  intro s later hrun h
  exact ⟨_, step_nmi_taken hrun h, nmiEntry_entered (s.setInputs later), interruptEntry_inputs _ _⟩

/-- An interrupt entry sets I and keeps the run state (R206). -/
theorem InterruptEntered.masked {vector : Addr} {s t : State} (h : InterruptEntered vector s t) :
    t.flag .i = true ∧ t.run = s.run := by
  obtain ⟨-, -, -, -, hi, -, -, -, -, -, -, hrun⟩ := h
  exact ⟨hi, hrun⟩

/-- Settles O46: the entry sets I, which masks the IRQ. -/
theorem nmiThenIrqDropsTheIrq : Obligations.NmiThenIrqDropsTheIrq := by
  intro s later hrun h
  obtain ⟨t, hstep, hentered, hinputs⟩ := nmiIsAlwaysTaken s (.irq :: later) hrun h
  obtain ⟨hi, hkept⟩ := hentered.masked
  exact ⟨t, hstep, hentered, step_irq_masked (hkept.trans hrun) hinputs hi⟩

/-! ## Return from interrupt -/

/-- After an interrupt entry RTI finds the status on top of the frame and PC below it, and puts both back (R169). -/
theorem rti_after_entry {vector : Addr} {s t : State} (h : InterruptEntered vector s t) :
    ∃ u, exec .rti t = .next u ∧ u.pc = s.pc ∧
      RegsKept [] s u ∧ FlagsKept [.b, .u] s u ∧ u.flag .b = false ∧ u.flag .u = false ∧
      MemKept [stackAddr s.sp, stackAddr (s.sp - 1), stackAddr (s.sp - 2)] s u ∧
      u.run = s.run ∧ u.inputs = t.inputs := by
  obtain ⟨hhigh, hlow, hstatus, hsp, -, -, -, -, hregs, -, hmem, hrun⟩ := h
  have hsp1 : t.sp + 1 = s.sp - 2 := by rw [hsp]; bv_omega
  have hsp2 : t.sp + 1 + 1 = s.sp - 1 := by rw [hsp]; bv_omega
  have hsp3 : t.sp + 1 + 1 + 1 = s.sp := by rw [hsp]; bv_omega
  have hflags : ∀ f, (interruptReturn t).flag f = if f = .b ∨ f = .u then false else s.flag f := by
    intro f
    rw [flag_interruptReturn, popped8_spec, hsp1, hstatus]
    cases f <;> rfl
  obtain ⟨hregs', -, hmem', hrun', hinputs'⟩ := interruptReturn_changesOnly t
  refine ⟨interruptReturn t, exec_of_mnemonic rfl t, ?_, fun r _ => ?_, fun f hf => ?_, hflags .b, hflags .u,
    fun addr haddr => (hmem' addr List.not_mem_nil).trans (hmem addr haddr), hrun'.trans hrun, hinputs'⟩
  · show popped16 (pop8 t) = s.pc
    rw [popped16_spec, pop8_sp, hsp3, hsp2, pop8_readByte, pop8_readByte, hlow, hhigh, joinBytes_low_high]
  · by_cases hr : r ∈ [.sp]
    · obtain rfl := List.mem_singleton.mp hr
      exact hsp3
    · exact (hregs' r hr).trans (hregs r hr)
  · refine (hflags f).trans (if_neg ?_)
    simpa using hf

/-- Settles O47: either interrupt is an entry, which RTI undoes. -/
theorem returnFromInterruptUndoesTheEntry : Obligations.ReturnFromInterruptUndoesTheEntry := by
  intro s later hrun h
  obtain ⟨vector, t, hstep, hentered, hinputs⟩ : ∃ vector t, step s = .next t ∧ InterruptEntered vector s t ∧
      t.inputs = later := by
    obtain ⟨hirq, hi⟩ | hnmi := h
    · exact ⟨_, (irqIsTakenUnlessMasked s later hrun hirq).1 hi⟩
    · exact ⟨_, nmiIsAlwaysTaken s later hrun hnmi⟩
  obtain ⟨u, hexec, hpc, hregs, hflags, hb, hu, hmem, hurun, huinputs⟩ := rti_after_entry hentered
  exact ⟨t, u, hstep, hexec, hpc, hregs, hflags, hb, hu, hmem, hurun, huinputs.trans hinputs⟩

/-! ## Reset -/

/-- Settles O48: reset is one record update, and the word at the vector is little-endian. -/
theorem resetLeavesTheResetValues : Obligations.ResetLeavesTheResetValues := by
  intro s later h
  have hvector : s.readWord Config.resetVector =
      BitVec.ofNat 16 ((s.readByte 0xFFFC#16).toNat + 256 * (s.readByte 0xFFFD#16).toNat) := by
    rw [Nat.add_comm, Nat.mul_comm]
    rfl
  rw [step_of_reset s later h, resetCore_spec, State.setInputs_readWord, hvector]
  rfl

/-- A word is read back from its two bytes (R44). -/
theorem readWord_writeByte_writeByte (s : State) (a w : Addr) :
    ((s.writeByte a (lowByte w)).writeByte (a + 1) (highByte w)).readWord a = w := by
  have hne : a ≠ a + 1 := by bv_omega
  rw [State.readWord, State.readByte_writeByte_same, State.readByte_writeByte_other _ _ _ _ hne,
    State.readByte_writeByte_same, joinBytes_low_high]

/-- Settles O49: the word the two writes leave at the vector is the start address. -/
theorem seededResetVectorStartsTheProgram : Obligations.SeededResetVectorStartsTheProgram := by
  intro s start later h
  have hframe := (writeByte_changesOnly (lowByte start) s 0xFFFC#16).trans
    (writeByte_changesOnly (highByte start) _ 0xFFFD#16)
  have hvector := readWord_writeByte_writeByte s Config.resetVector start
  obtain ⟨-, -, hmem, -⟩ := hframe
  refine ⟨_, _, _, step_of_write s _ _ _ h, step_of_write _ _ _ _ rfl, step_of_reset _ later rfl, ?_, hmem, rfl⟩
  rw [resetCore_spec]
  exact congrArg (Snapshot.mk 0x00#8 0x00#8 0x00#8 0xFF#8 · 0x20#8 .running) hvector

end Sys2Proof.Machine
end

section
/-! PROOFS. The run with fuel (R218, R245, D32) against the relation `RunsIn`: after `n` steps of a run the loop stands
at the state they reach, with `n` less fuel. -/

namespace Sys2Proof.Machine

/-- The end a state has reached is halted or faulted, in the state itself (R25, R245). -/
theorem runEnd_eq_some {s : State} {e : RunEnd} (h : s.runEnd = some e) :
    (e = .halted s ∧ s.run = .halted) ∨ ∃ f, e = .faulted f s ∧ s.run = .faulted f := by
  cases hrun : s.run with
  | running => cases (runEnd_running s hrun).symm.trans h
  | halted =>
    injection (runEnd_halted s hrun).symm.trans h with he
    exact .inl ⟨he.symm, rfl⟩
  | faulted f =>
    injection (runEnd_faulted s f hrun).symm.trans h with he
    exact .inr ⟨f, he.symm, rfl⟩

/-- A stopped state has reached an end (R218). -/
theorem exists_runEnd {s : State} (h : s.run ≠ .running) : ∃ e, s.runEnd = some e := by
  cases hrun : s.run with
  | running => exact absurd hrun h
  | halted => exact ⟨_, runEnd_halted s hrun⟩
  | faulted f => exact ⟨_, runEnd_faulted s f hrun⟩

/-- The loop follows the steps of a run (R218). -/
theorem runWithFuel_of_runsIn {n : Nat} {s t : State} (h : RunsIn n s t) (fuel : Nat) :
    runWithFuel (fuel + n) s = runWithFuel fuel t := by
  induction h with
  | here s => rfl
  | step hrun hstep _ ih => exact (runWithFuel_succ _ _ _ hrun hstep).trans ih

/-- A run that gets to an end within the fuel ends there. -/
theorem runWithFuel_of_runEnd {n fuel : Nat} {s t : State} {e : RunEnd} (hn : n ≤ fuel) (hruns : RunsIn n s t)
    (he : t.runEnd = some e) : runWithFuel fuel s = .next e := by
  rw [← Nat.sub_add_cancel hn, runWithFuel_of_runsIn hruns]
  exact runWithFuel_ended _ t e he

/-- A run that uses up the fuel while the core runs is out of fuel (D32). -/
theorem runWithFuel_of_running {fuel : Nat} {s t : State} (hruns : RunsIn fuel s t) (hrun : t.run = .running) :
    runWithFuel fuel s = .next (.outOfFuel t) := by
  rw [← Nat.zero_add fuel, runWithFuel_of_runsIn hruns, runWithFuel_zero t hrun]

/-- Either a run gets to an end within the fuel, or it uses the fuel up while the core runs (R245, D32). -/
theorem run_ends_or_lasts (fuel : Nat) (s : State) :
    (∃ n t e, n ≤ fuel ∧ RunsIn n s t ∧ t.runEnd = some e) ∨ ∃ t, RunsIn fuel s t ∧ t.run = .running := by
  induction fuel generalizing s with
  | zero =>
    by_cases hrun : s.run = .running
    · exact .inr ⟨s, .here s, hrun⟩
    · obtain ⟨e, he⟩ := exists_runEnd hrun
      exact .inl ⟨0, s, e, le_rfl, .here s, he⟩
  | succ fuel ih =>
    by_cases hrun : s.run = .running
    · obtain ⟨t, hstep⟩ := step_total s
      obtain ⟨n, u, e, hn, hruns, he⟩ | ⟨u, hruns, hu⟩ := ih t
      · exact .inl ⟨n + 1, u, e, Nat.succ_le_succ hn, .step hrun hstep hruns, he⟩
      · exact .inr ⟨u, .step hrun hstep hruns, hu⟩
    · obtain ⟨e, he⟩ := exists_runEnd hrun
      exact .inl ⟨0, s, e, Nat.zero_le _, .here s, he⟩

/-- What an end of the loop says of the run: it got to that end within the fuel, or it used the fuel up. -/
theorem runWithFuel_cases {fuel : Nat} {s : State} {e : RunEnd} (h : runWithFuel fuel s = .next e) :
    (∃ n t, n ≤ fuel ∧ RunsIn n s t ∧ t.runEnd = some e) ∨
      ∃ t, RunsIn fuel s t ∧ t.run = .running ∧ e = .outOfFuel t := by
  obtain ⟨n, t, e', hn, hruns, he⟩ | ⟨t, hruns, hrun⟩ := run_ends_or_lasts fuel s
  · injection (runWithFuel_of_runEnd hn hruns he).symm.trans h with heq
    exact .inl ⟨n, t, hn, hruns, heq ▸ he⟩
  · injection (runWithFuel_of_running hruns hrun).symm.trans h with heq
    exact .inr ⟨t, hruns, hrun, heq.symm⟩

theorem exists_runWithFuel (fuel : Nat) (s : State) : ∃ e, runWithFuel fuel s = .next e := by
  obtain ⟨n, t, e, hn, hruns, he⟩ | ⟨t, hruns, hrun⟩ := run_ends_or_lasts fuel s
  · exact ⟨e, runWithFuel_of_runEnd hn hruns he⟩
  · exact ⟨_, runWithFuel_of_running hruns hrun⟩

theorem runWithFuel_eq_halted (fuel : Nat) (s t : State) :
    runWithFuel fuel s = .next (.halted t) ↔ t.run = .halted ∧ ∃ n, n ≤ fuel ∧ RunsIn n s t := by
  constructor
  · intro h
    obtain ⟨n, u, hn, hruns, he⟩ | ⟨u, -, -, he⟩ := runWithFuel_cases h
    · obtain ⟨he, hrun⟩ | ⟨f, he, -⟩ := runEnd_eq_some he
      · injection he with he
        subst he
        exact ⟨hrun, n, hn, hruns⟩
      · cases he
    · cases he
  · rintro ⟨hrun, n, hn, hruns⟩
    exact runWithFuel_of_runEnd hn hruns (runEnd_halted t hrun)

theorem runWithFuel_eq_faulted (fuel : Nat) (s : State) (f : Fault) (t : State) :
    runWithFuel fuel s = .next (.faulted f t) ↔ t.run = .faulted f ∧ ∃ n, n ≤ fuel ∧ RunsIn n s t := by
  constructor
  · intro h
    obtain ⟨n, u, hn, hruns, he⟩ | ⟨u, -, -, he⟩ := runWithFuel_cases h
    · obtain ⟨he, -⟩ | ⟨g, he, hrun⟩ := runEnd_eq_some he
      · cases he
      · injection he with hf ht
        subst hf ht
        exact ⟨hrun, n, hn, hruns⟩
    · cases he
  · rintro ⟨hrun, n, hn, hruns⟩
    exact runWithFuel_of_runEnd hn hruns (runEnd_faulted t f hrun)

theorem runWithFuel_eq_outOfFuel (fuel : Nat) (s t : State) :
    runWithFuel fuel s = .next (.outOfFuel t) ↔ t.run = .running ∧ RunsIn fuel s t := by
  constructor
  · intro h
    obtain ⟨n, u, -, -, he⟩ | ⟨u, hruns, hrun, he⟩ := runWithFuel_cases h
    · obtain ⟨he, -⟩ | ⟨g, he, -⟩ := runEnd_eq_some he
      · cases he
      · cases he
    · injection he with he
      subst he
      exact ⟨hrun, hruns⟩
  · rintro ⟨hrun, hruns⟩
    exact runWithFuel_of_running hruns hrun

/-- More fuel does not change an end that is halted or faulted (D32). -/
theorem runWithFuel_add {fuel : Nat} {s t : State} {e : RunEnd} (h : runWithFuel fuel s = .next e)
    (he : e = .halted t ∨ ∃ f, e = .faulted f t) (more : Nat) : runWithFuel (fuel + more) s = .next e := by
  obtain ⟨n, u, hn, hruns, hend⟩ | ⟨u, -, -, hout⟩ := runWithFuel_cases h
  · exact runWithFuel_of_runEnd (Nat.le_add_right_of_le hn) hruns hend
  · subst hout
    obtain he | ⟨f, he⟩ := he
    · cases he
    · cases he

/-- The result of a halted or faulted end is that of its state (R245). -/
theorem result_of_ended {t : State} {e : RunEnd} (he : e = .halted t ∨ ∃ f, e = .faulted f t) :
    e.result = some ⟨t.snapshot, t.dump⟩ := by
  obtain rfl | ⟨f, rfl⟩ := he
  · exact result_halted t
  · exact result_faulted f t

/-- Settles O50: the loop ends halted, faulted or out of fuel where the relation `RunsIn` says. -/
theorem runStopsExactlyWhereTheCoreStops : Obligations.RunStopsExactlyWhereTheCoreStops := by
  intro fuel s
  exact ⟨exists_runWithFuel fuel s, runWithFuel_eq_halted fuel s, runWithFuel_eq_faulted fuel s,
    runWithFuel_eq_outOfFuel fuel s,
    fun e t h he => ⟨runWithFuel_add h he, result_of_ended he, dump_length t, dump_at t⟩, result_outOfFuel⟩

end Sys2Proof.Machine
end
